-- ==== Sys2Proof/Word.lean ====
section
/-! DEFINITION. The two word types of CORE: 8-bit data (the parameter XLEN of R6) and 16-bit addresses (ALEN). -/

namespace Sys2Proof

/-- A data byte, the spec's `u8` (00_scope section 7). -/
abbrev Byte := BitVec 8

/-- A bus address, the spec's `u16`. -/
abbrev Addr := BitVec 16

end Sys2Proof
end

