-- ==== Sys2Proof/Machine/Bits.lean ====
section
/-! DEFINITION. The slices, concatenation and extensions of 00_scope section 7, and the parity of a count. -/

namespace Sys2Proof.Machine

/-- `lo8(w) = w[7:0]`. -/
def lo8 (w : Addr) : Byte := w.extractLsb' 0 8

/-- `hi8(w) = w[15:8]`. -/
def hi8 (w : Addr) : Byte := w.extractLsb' 8 8

/-- `word(lo, hi) = {hi, lo}`, low byte first (20_memory R32). -/
def word (lo hi : Byte) : Addr := hi ++ lo

/-- `zext_16(b)`. -/
def zext16 (b : Byte) : Addr := b.setWidth 16

/-- `sext_16(b)`: `b` if `b < 0x80`, else `b + 0xFF00`. -/
def sext16 (b : Byte) : Addr := b.signExtend 16

/-- `n[0]` of a cycle count (10_state R20). -/
def oddCount (n : Nat) : Bool := n % 2 == 1

end Sys2Proof.Machine
end

