-- ==== Sys2Proof/Syntax.lean ====
section
/-! DEFINITION. The instruction set as syntax: 56 mnemonics, 13 addressing modes, and one constructor of `Instr` per row of
spec/opcode_table.json (30_encoding R58, R59). -/

namespace Sys2Proof

/-- The 56 mnemonics (30_encoding R59). -/
inductive Mnemonic where
  | LDA | LDX | LDY | ADC | SBC | AND | ORA | EOR | CMP | CPX | CPY | BIT
  | ASL | LSR | ROL | ROR | INC | DEC | INX | INY | DEX | DEY
  | STA | STX | STY
  | BCC | BCS | BEQ | BNE | BMI | BPL | BVC | BVS
  | JMP | JSR | RTS | RTI
  | PHA | PHP | PLA | PLP
  | TAX | TAY | TXA | TYA | TSX | TXS
  | CLC | CLD | CLI | CLV | SEC | SED | SEI
  | BRK | NOP
  deriving DecidableEq, Repr

/-- The closed set of 13 addressing modes (40_addressing_modes R70). -/
inductive Mode where
  | IMPLICIT | ACCUMULATOR | IMMEDIATE
  | ZEROPAGE | ZEROPAGE_X | ZEROPAGE_Y
  | ABSOLUTE | ABSOLUTE_X | ABSOLUTE_Y
  | INDIRECT | INDIRECT_X | INDIRECT_Y
  | RELATIVE
  deriving DecidableEq, Repr

/-- The `operand: Option<u8|u16>` of the source's descriptor (30_encoding R53). -/
inductive OperandField where
  | absent
  | u8 (b : Byte)
  | u16 (w : Addr)
  deriving DecidableEq, Repr

/-- The decoded-instruction descriptor of 30_encoding R53: mnemonic, addressing mode, operand. -/
structure Descriptor where
  mnemonic : Mnemonic
  mode : Mode
  operand : OperandField
  deriving DecidableEq, Repr

/-- One constructor per row of spec/opcode_table.json. The suffix is the mode: Acc, Imm, Zp, Zpx, Zpy, Abs, Abx, Aby, Ind,
Izx, Izy, Rel, and none for IMPLICIT. The argument is the operand byte (`v` immediate data, `b` zero-page address, pointer
location or branch offset) or the 16-bit operand `w = word(b1, b2)`. -/
inductive Instr where
  -- load, arithmetic, logic, compare, bit test (41_load_alu)
  | ldaImm (v : Byte) | ldaZp (b : Byte) | ldaZpx (b : Byte) | ldaAbs (w : Addr) | ldaAbx (w : Addr)
  | ldaAby (w : Addr) | ldaIzx (b : Byte) | ldaIzy (b : Byte)
  | ldxImm (v : Byte) | ldxZp (b : Byte) | ldxZpy (b : Byte) | ldxAbs (w : Addr) | ldxAby (w : Addr)
  | ldyImm (v : Byte) | ldyZp (b : Byte) | ldyZpx (b : Byte) | ldyAbs (w : Addr) | ldyAbx (w : Addr)
  | adcImm (v : Byte) | adcZp (b : Byte) | adcZpx (b : Byte) | adcAbs (w : Addr) | adcAbx (w : Addr)
  | adcAby (w : Addr) | adcIzx (b : Byte) | adcIzy (b : Byte)
  | sbcImm (v : Byte) | sbcZp (b : Byte) | sbcZpx (b : Byte) | sbcAbs (w : Addr) | sbcAbx (w : Addr)
  | sbcAby (w : Addr) | sbcIzx (b : Byte) | sbcIzy (b : Byte)
  | andImm (v : Byte) | andZp (b : Byte) | andZpx (b : Byte) | andAbs (w : Addr) | andAbx (w : Addr)
  | andAby (w : Addr) | andIzx (b : Byte) | andIzy (b : Byte)
  | oraImm (v : Byte) | oraZp (b : Byte) | oraZpx (b : Byte) | oraAbs (w : Addr) | oraAbx (w : Addr)
  | oraAby (w : Addr) | oraIzx (b : Byte) | oraIzy (b : Byte)
  | eorImm (v : Byte) | eorZp (b : Byte) | eorZpx (b : Byte) | eorAbs (w : Addr) | eorAbx (w : Addr)
  | eorAby (w : Addr) | eorIzx (b : Byte) | eorIzy (b : Byte)
  | cmpImm (v : Byte) | cmpZp (b : Byte) | cmpZpx (b : Byte) | cmpAbs (w : Addr) | cmpAbx (w : Addr)
  | cmpAby (w : Addr) | cmpIzx (b : Byte) | cmpIzy (b : Byte)
  | cpxImm (v : Byte) | cpxZp (b : Byte) | cpxAbs (w : Addr)
  | cpyImm (v : Byte) | cpyZp (b : Byte) | cpyAbs (w : Addr)
  | bitZp (b : Byte) | bitAbs (w : Addr)
  -- shift, rotate, increment, decrement (42_shift_incdec)
  | aslAcc | aslZp (b : Byte) | aslZpx (b : Byte) | aslAbs (w : Addr) | aslAbx (w : Addr)
  | lsrAcc | lsrZp (b : Byte) | lsrZpx (b : Byte) | lsrAbs (w : Addr) | lsrAbx (w : Addr)
  | rolAcc | rolZp (b : Byte) | rolZpx (b : Byte) | rolAbs (w : Addr) | rolAbx (w : Addr)
  | rorAcc | rorZp (b : Byte) | rorZpx (b : Byte) | rorAbs (w : Addr) | rorAbx (w : Addr)
  | incZp (b : Byte) | incZpx (b : Byte) | incAbs (w : Addr) | incAbx (w : Addr)
  | decZp (b : Byte) | decZpx (b : Byte) | decAbs (w : Addr) | decAbx (w : Addr)
  | inx
  | iny
  | dex
  | dey
  -- store (43_store)
  | staZp (b : Byte) | staZpx (b : Byte) | staAbs (w : Addr) | staAbx (w : Addr) | staAby (w : Addr)
  | staIzx (b : Byte) | staIzy (b : Byte)
  | stxZp (b : Byte) | stxZpy (b : Byte) | stxAbs (w : Addr)
  | styZp (b : Byte) | styZpx (b : Byte) | styAbs (w : Addr)
  -- conditional branch (44_branch)
  | bccRel (b : Byte)
  | bcsRel (b : Byte)
  | beqRel (b : Byte)
  | bneRel (b : Byte)
  | bmiRel (b : Byte)
  | bplRel (b : Byte)
  | bvcRel (b : Byte)
  | bvsRel (b : Byte)
  -- jump, call, return (45_jump_return)
  | jmpAbs (w : Addr) | jmpInd (w : Addr)
  | jsrAbs (w : Addr)
  | rts
  | rti
  -- stack (46_stack)
  | pha
  | php
  | pla
  | plp
  -- register transfer (47_transfer)
  | tax
  | tay
  | txa
  | tya
  | tsx
  | txs
  -- flag set and clear (48_flags)
  | clc
  | cld
  | cli
  | clv
  | sec
  | sed
  | sei
  -- BRK and NOP (49_brk_nop)
  | brk
  | nop
  deriving DecidableEq, Repr

/-- The mnemonic, mode and operand of each constructor (30_encoding R59, R62). -/
def Instr.descriptor : Instr → Descriptor
  | .ldaImm v => ⟨.LDA, .IMMEDIATE, .u8 v⟩
  | .ldaZp b => ⟨.LDA, .ZEROPAGE, .u8 b⟩
  | .ldaZpx b => ⟨.LDA, .ZEROPAGE_X, .u8 b⟩
  | .ldaAbs w => ⟨.LDA, .ABSOLUTE, .u16 w⟩
  | .ldaAbx w => ⟨.LDA, .ABSOLUTE_X, .u16 w⟩
  | .ldaAby w => ⟨.LDA, .ABSOLUTE_Y, .u16 w⟩
  | .ldaIzx b => ⟨.LDA, .INDIRECT_X, .u8 b⟩
  | .ldaIzy b => ⟨.LDA, .INDIRECT_Y, .u8 b⟩
  | .ldxImm v => ⟨.LDX, .IMMEDIATE, .u8 v⟩
  | .ldxZp b => ⟨.LDX, .ZEROPAGE, .u8 b⟩
  | .ldxZpy b => ⟨.LDX, .ZEROPAGE_Y, .u8 b⟩
  | .ldxAbs w => ⟨.LDX, .ABSOLUTE, .u16 w⟩
  | .ldxAby w => ⟨.LDX, .ABSOLUTE_Y, .u16 w⟩
  | .ldyImm v => ⟨.LDY, .IMMEDIATE, .u8 v⟩
  | .ldyZp b => ⟨.LDY, .ZEROPAGE, .u8 b⟩
  | .ldyZpx b => ⟨.LDY, .ZEROPAGE_X, .u8 b⟩
  | .ldyAbs w => ⟨.LDY, .ABSOLUTE, .u16 w⟩
  | .ldyAbx w => ⟨.LDY, .ABSOLUTE_X, .u16 w⟩
  | .adcImm v => ⟨.ADC, .IMMEDIATE, .u8 v⟩
  | .adcZp b => ⟨.ADC, .ZEROPAGE, .u8 b⟩
  | .adcZpx b => ⟨.ADC, .ZEROPAGE_X, .u8 b⟩
  | .adcAbs w => ⟨.ADC, .ABSOLUTE, .u16 w⟩
  | .adcAbx w => ⟨.ADC, .ABSOLUTE_X, .u16 w⟩
  | .adcAby w => ⟨.ADC, .ABSOLUTE_Y, .u16 w⟩
  | .adcIzx b => ⟨.ADC, .INDIRECT_X, .u8 b⟩
  | .adcIzy b => ⟨.ADC, .INDIRECT_Y, .u8 b⟩
  | .sbcImm v => ⟨.SBC, .IMMEDIATE, .u8 v⟩
  | .sbcZp b => ⟨.SBC, .ZEROPAGE, .u8 b⟩
  | .sbcZpx b => ⟨.SBC, .ZEROPAGE_X, .u8 b⟩
  | .sbcAbs w => ⟨.SBC, .ABSOLUTE, .u16 w⟩
  | .sbcAbx w => ⟨.SBC, .ABSOLUTE_X, .u16 w⟩
  | .sbcAby w => ⟨.SBC, .ABSOLUTE_Y, .u16 w⟩
  | .sbcIzx b => ⟨.SBC, .INDIRECT_X, .u8 b⟩
  | .sbcIzy b => ⟨.SBC, .INDIRECT_Y, .u8 b⟩
  | .andImm v => ⟨.AND, .IMMEDIATE, .u8 v⟩
  | .andZp b => ⟨.AND, .ZEROPAGE, .u8 b⟩
  | .andZpx b => ⟨.AND, .ZEROPAGE_X, .u8 b⟩
  | .andAbs w => ⟨.AND, .ABSOLUTE, .u16 w⟩
  | .andAbx w => ⟨.AND, .ABSOLUTE_X, .u16 w⟩
  | .andAby w => ⟨.AND, .ABSOLUTE_Y, .u16 w⟩
  | .andIzx b => ⟨.AND, .INDIRECT_X, .u8 b⟩
  | .andIzy b => ⟨.AND, .INDIRECT_Y, .u8 b⟩
  | .oraImm v => ⟨.ORA, .IMMEDIATE, .u8 v⟩
  | .oraZp b => ⟨.ORA, .ZEROPAGE, .u8 b⟩
  | .oraZpx b => ⟨.ORA, .ZEROPAGE_X, .u8 b⟩
  | .oraAbs w => ⟨.ORA, .ABSOLUTE, .u16 w⟩
  | .oraAbx w => ⟨.ORA, .ABSOLUTE_X, .u16 w⟩
  | .oraAby w => ⟨.ORA, .ABSOLUTE_Y, .u16 w⟩
  | .oraIzx b => ⟨.ORA, .INDIRECT_X, .u8 b⟩
  | .oraIzy b => ⟨.ORA, .INDIRECT_Y, .u8 b⟩
  | .eorImm v => ⟨.EOR, .IMMEDIATE, .u8 v⟩
  | .eorZp b => ⟨.EOR, .ZEROPAGE, .u8 b⟩
  | .eorZpx b => ⟨.EOR, .ZEROPAGE_X, .u8 b⟩
  | .eorAbs w => ⟨.EOR, .ABSOLUTE, .u16 w⟩
  | .eorAbx w => ⟨.EOR, .ABSOLUTE_X, .u16 w⟩
  | .eorAby w => ⟨.EOR, .ABSOLUTE_Y, .u16 w⟩
  | .eorIzx b => ⟨.EOR, .INDIRECT_X, .u8 b⟩
  | .eorIzy b => ⟨.EOR, .INDIRECT_Y, .u8 b⟩
  | .cmpImm v => ⟨.CMP, .IMMEDIATE, .u8 v⟩
  | .cmpZp b => ⟨.CMP, .ZEROPAGE, .u8 b⟩
  | .cmpZpx b => ⟨.CMP, .ZEROPAGE_X, .u8 b⟩
  | .cmpAbs w => ⟨.CMP, .ABSOLUTE, .u16 w⟩
  | .cmpAbx w => ⟨.CMP, .ABSOLUTE_X, .u16 w⟩
  | .cmpAby w => ⟨.CMP, .ABSOLUTE_Y, .u16 w⟩
  | .cmpIzx b => ⟨.CMP, .INDIRECT_X, .u8 b⟩
  | .cmpIzy b => ⟨.CMP, .INDIRECT_Y, .u8 b⟩
  | .cpxImm v => ⟨.CPX, .IMMEDIATE, .u8 v⟩
  | .cpxZp b => ⟨.CPX, .ZEROPAGE, .u8 b⟩
  | .cpxAbs w => ⟨.CPX, .ABSOLUTE, .u16 w⟩
  | .cpyImm v => ⟨.CPY, .IMMEDIATE, .u8 v⟩
  | .cpyZp b => ⟨.CPY, .ZEROPAGE, .u8 b⟩
  | .cpyAbs w => ⟨.CPY, .ABSOLUTE, .u16 w⟩
  | .bitZp b => ⟨.BIT, .ZEROPAGE, .u8 b⟩
  | .bitAbs w => ⟨.BIT, .ABSOLUTE, .u16 w⟩
  | .aslAcc => ⟨.ASL, .ACCUMULATOR, .absent⟩
  | .aslZp b => ⟨.ASL, .ZEROPAGE, .u8 b⟩
  | .aslZpx b => ⟨.ASL, .ZEROPAGE_X, .u8 b⟩
  | .aslAbs w => ⟨.ASL, .ABSOLUTE, .u16 w⟩
  | .aslAbx w => ⟨.ASL, .ABSOLUTE_X, .u16 w⟩
  | .lsrAcc => ⟨.LSR, .ACCUMULATOR, .absent⟩
  | .lsrZp b => ⟨.LSR, .ZEROPAGE, .u8 b⟩
  | .lsrZpx b => ⟨.LSR, .ZEROPAGE_X, .u8 b⟩
  | .lsrAbs w => ⟨.LSR, .ABSOLUTE, .u16 w⟩
  | .lsrAbx w => ⟨.LSR, .ABSOLUTE_X, .u16 w⟩
  | .rolAcc => ⟨.ROL, .ACCUMULATOR, .absent⟩
  | .rolZp b => ⟨.ROL, .ZEROPAGE, .u8 b⟩
  | .rolZpx b => ⟨.ROL, .ZEROPAGE_X, .u8 b⟩
  | .rolAbs w => ⟨.ROL, .ABSOLUTE, .u16 w⟩
  | .rolAbx w => ⟨.ROL, .ABSOLUTE_X, .u16 w⟩
  | .rorAcc => ⟨.ROR, .ACCUMULATOR, .absent⟩
  | .rorZp b => ⟨.ROR, .ZEROPAGE, .u8 b⟩
  | .rorZpx b => ⟨.ROR, .ZEROPAGE_X, .u8 b⟩
  | .rorAbs w => ⟨.ROR, .ABSOLUTE, .u16 w⟩
  | .rorAbx w => ⟨.ROR, .ABSOLUTE_X, .u16 w⟩
  | .incZp b => ⟨.INC, .ZEROPAGE, .u8 b⟩
  | .incZpx b => ⟨.INC, .ZEROPAGE_X, .u8 b⟩
  | .incAbs w => ⟨.INC, .ABSOLUTE, .u16 w⟩
  | .incAbx w => ⟨.INC, .ABSOLUTE_X, .u16 w⟩
  | .decZp b => ⟨.DEC, .ZEROPAGE, .u8 b⟩
  | .decZpx b => ⟨.DEC, .ZEROPAGE_X, .u8 b⟩
  | .decAbs w => ⟨.DEC, .ABSOLUTE, .u16 w⟩
  | .decAbx w => ⟨.DEC, .ABSOLUTE_X, .u16 w⟩
  | .inx => ⟨.INX, .IMPLICIT, .absent⟩
  | .iny => ⟨.INY, .IMPLICIT, .absent⟩
  | .dex => ⟨.DEX, .IMPLICIT, .absent⟩
  | .dey => ⟨.DEY, .IMPLICIT, .absent⟩
  | .staZp b => ⟨.STA, .ZEROPAGE, .u8 b⟩
  | .staZpx b => ⟨.STA, .ZEROPAGE_X, .u8 b⟩
  | .staAbs w => ⟨.STA, .ABSOLUTE, .u16 w⟩
  | .staAbx w => ⟨.STA, .ABSOLUTE_X, .u16 w⟩
  | .staAby w => ⟨.STA, .ABSOLUTE_Y, .u16 w⟩
  | .staIzx b => ⟨.STA, .INDIRECT_X, .u8 b⟩
  | .staIzy b => ⟨.STA, .INDIRECT_Y, .u8 b⟩
  | .stxZp b => ⟨.STX, .ZEROPAGE, .u8 b⟩
  | .stxZpy b => ⟨.STX, .ZEROPAGE_Y, .u8 b⟩
  | .stxAbs w => ⟨.STX, .ABSOLUTE, .u16 w⟩
  | .styZp b => ⟨.STY, .ZEROPAGE, .u8 b⟩
  | .styZpx b => ⟨.STY, .ZEROPAGE_X, .u8 b⟩
  | .styAbs w => ⟨.STY, .ABSOLUTE, .u16 w⟩
  | .bccRel b => ⟨.BCC, .RELATIVE, .u8 b⟩
  | .bcsRel b => ⟨.BCS, .RELATIVE, .u8 b⟩
  | .beqRel b => ⟨.BEQ, .RELATIVE, .u8 b⟩
  | .bneRel b => ⟨.BNE, .RELATIVE, .u8 b⟩
  | .bmiRel b => ⟨.BMI, .RELATIVE, .u8 b⟩
  | .bplRel b => ⟨.BPL, .RELATIVE, .u8 b⟩
  | .bvcRel b => ⟨.BVC, .RELATIVE, .u8 b⟩
  | .bvsRel b => ⟨.BVS, .RELATIVE, .u8 b⟩
  | .jmpAbs w => ⟨.JMP, .ABSOLUTE, .u16 w⟩
  | .jmpInd w => ⟨.JMP, .INDIRECT, .u16 w⟩
  | .jsrAbs w => ⟨.JSR, .ABSOLUTE, .u16 w⟩
  | .rts => ⟨.RTS, .IMPLICIT, .absent⟩
  | .rti => ⟨.RTI, .IMPLICIT, .absent⟩
  | .pha => ⟨.PHA, .IMPLICIT, .absent⟩
  | .php => ⟨.PHP, .IMPLICIT, .absent⟩
  | .pla => ⟨.PLA, .IMPLICIT, .absent⟩
  | .plp => ⟨.PLP, .IMPLICIT, .absent⟩
  | .tax => ⟨.TAX, .IMPLICIT, .absent⟩
  | .tay => ⟨.TAY, .IMPLICIT, .absent⟩
  | .txa => ⟨.TXA, .IMPLICIT, .absent⟩
  | .tya => ⟨.TYA, .IMPLICIT, .absent⟩
  | .tsx => ⟨.TSX, .IMPLICIT, .absent⟩
  | .txs => ⟨.TXS, .IMPLICIT, .absent⟩
  | .clc => ⟨.CLC, .IMPLICIT, .absent⟩
  | .cld => ⟨.CLD, .IMPLICIT, .absent⟩
  | .cli => ⟨.CLI, .IMPLICIT, .absent⟩
  | .clv => ⟨.CLV, .IMPLICIT, .absent⟩
  | .sec => ⟨.SEC, .IMPLICIT, .absent⟩
  | .sed => ⟨.SED, .IMPLICIT, .absent⟩
  | .sei => ⟨.SEI, .IMPLICIT, .absent⟩
  | .brk => ⟨.BRK, .IMPLICIT, .absent⟩
  | .nop => ⟨.NOP, .IMPLICIT, .absent⟩

/-- The mnemonic of an instruction. -/
def Instr.mnemonic (i : Instr) : Mnemonic := i.descriptor.mnemonic

/-- The addressing mode of an instruction. -/
def Instr.mode (i : Instr) : Mode := i.descriptor.mode

end Sys2Proof
end

