-- ==== Sys2Proof/WellFormed.lean ====
section
/-! DEFINITION. Which descriptors are instructions: the legal (mnemonic, mode) pairs of 30_encoding R62 and the operand size
of R54. Operand bytes have no reserved values (R61), so nothing else is checked. -/

namespace Sys2Proof

/-- `Width(mode)` in bytes (30_encoding R54). -/
def width : Mode → Nat
  | .IMPLICIT | .ACCUMULATOR => 1
  | .IMMEDIATE | .ZEROPAGE | .ZEROPAGE_X | .ZEROPAGE_Y | .RELATIVE | .INDIRECT_X | .INDIRECT_Y => 2
  | .ABSOLUTE | .ABSOLUTE_X | .ABSOLUTE_Y | .INDIRECT => 3

/-- The mnemonics that have a mode, mode by mode as 30_encoding R62 lists them. -/
def mnemonicsOf : Mode → List Mnemonic
  | .IMPLICIT => [.BRK, .CLC, .CLD, .CLI, .CLV, .DEX, .DEY, .INX, .INY, .NOP, .PHA, .PHP, .PLA, .PLP, .RTI, .RTS, .SEC,
      .SED, .SEI, .TAX, .TAY, .TSX, .TXA, .TXS, .TYA]
  | .ACCUMULATOR => [.ASL, .LSR, .ROL, .ROR]
  | .IMMEDIATE => [.ADC, .AND, .CMP, .CPX, .CPY, .EOR, .LDA, .LDX, .LDY, .ORA, .SBC]
  | .ZEROPAGE => [.ADC, .AND, .ASL, .BIT, .CMP, .CPX, .CPY, .DEC, .EOR, .INC, .LDA, .LDX, .LDY, .LSR, .ORA, .ROL, .ROR,
      .SBC, .STA, .STX, .STY]
  | .ZEROPAGE_X => [.ADC, .AND, .ASL, .CMP, .DEC, .EOR, .INC, .LDA, .LDY, .LSR, .ORA, .ROL, .ROR, .SBC, .STA, .STY]
  | .ZEROPAGE_Y => [.LDX, .STX]
  | .ABSOLUTE => [.ADC, .AND, .ASL, .BIT, .CMP, .CPX, .CPY, .DEC, .EOR, .INC, .JMP, .JSR, .LDA, .LDX, .LDY, .LSR, .ORA,
      .ROL, .ROR, .SBC, .STA, .STX, .STY]
  | .ABSOLUTE_X => [.ADC, .AND, .ASL, .CMP, .DEC, .EOR, .INC, .LDA, .LDY, .LSR, .ORA, .ROL, .ROR, .SBC, .STA]
  | .ABSOLUTE_Y => [.ADC, .AND, .CMP, .EOR, .LDA, .LDX, .ORA, .SBC, .STA]
  | .INDIRECT => [.JMP]
  | .INDIRECT_X => [.ADC, .AND, .CMP, .EOR, .LDA, .ORA, .SBC, .STA]
  | .INDIRECT_Y => [.ADC, .AND, .CMP, .EOR, .LDA, .ORA, .SBC, .STA]
  | .RELATIVE => [.BCC, .BCS, .BEQ, .BMI, .BNE, .BPL, .BVC, .BVS]

/-- Mode legality (30_encoding R62). -/
def legalPair (m : Mnemonic) (mode : Mode) : Bool := (mnemonicsOf mode).contains m

/-- The number of operand bytes. -/
def OperandField.size : OperandField → Nat
  | .absent => 0
  | .u8 _ => 1
  | .u16 _ => 2

/-- The operand has the size the mode's width leaves after the opcode byte (30_encoding R53, R54). -/
def operandFits (d : Descriptor) : Bool := 1 + d.operand.size == width d.mode

/-- A descriptor is well formed when its pair is legal and its operand fits. -/
def Descriptor.wf (d : Descriptor) : Bool := legalPair d.mnemonic d.mode && operandFits d

/-- An instruction is well formed when its descriptor is. -/
def Instr.wf (i : Instr) : Bool := i.descriptor.wf

end Sys2Proof
end

