-- ==== Sys2Proof/Decode.lean ====
section
/-! DEFINITION. The dispatch table (30_encoding R55, R58, R59), the decoder over bytes, and the encoder (R53, R57). -/

namespace Sys2Proof

open Sys2Proof.Machine (lo8 hi8 word)

/-- One assigned entry of `Dispatch` (30_encoding R55): the opcode byte, `(mnemonic, mode, base_cycles, page_penalty)`, and
how the instruction is built from the operand bytes `b1`, `b2` that its width gives it. -/
structure Row where
  opcode : Byte
  mnemonic : Mnemonic
  mode : Mode
  base : Nat
  pen : Bool
  make : Byte → Byte → Instr

/-- The row `0x` of the opcode map of 30_encoding R58, with the cycles and `+` marks of R59. -/
def rows0x : List Row := [
  ⟨0x00, .BRK, .IMPLICIT, 7, false, fun _ _ => .brk⟩,
  ⟨0x01, .ORA, .INDIRECT_X, 6, false, fun b1 _ => .oraIzx b1⟩,
  ⟨0x05, .ORA, .ZEROPAGE, 3, false, fun b1 _ => .oraZp b1⟩,
  ⟨0x06, .ASL, .ZEROPAGE, 5, false, fun b1 _ => .aslZp b1⟩,
  ⟨0x08, .PHP, .IMPLICIT, 3, false, fun _ _ => .php⟩,
  ⟨0x09, .ORA, .IMMEDIATE, 2, false, fun b1 _ => .oraImm b1⟩,
  ⟨0x0A, .ASL, .ACCUMULATOR, 2, false, fun _ _ => .aslAcc⟩,
  ⟨0x0D, .ORA, .ABSOLUTE, 4, false, fun b1 b2 => .oraAbs (word b1 b2)⟩,
  ⟨0x0E, .ASL, .ABSOLUTE, 6, false, fun b1 b2 => .aslAbs (word b1 b2)⟩]

/-- The row `1x` of the opcode map of 30_encoding R58, with the cycles and `+` marks of R59. -/
def rows1x : List Row := [
  ⟨0x10, .BPL, .RELATIVE, 2, false, fun b1 _ => .bplRel b1⟩,
  ⟨0x11, .ORA, .INDIRECT_Y, 5, true, fun b1 _ => .oraIzy b1⟩,
  ⟨0x15, .ORA, .ZEROPAGE_X, 4, false, fun b1 _ => .oraZpx b1⟩,
  ⟨0x16, .ASL, .ZEROPAGE_X, 6, false, fun b1 _ => .aslZpx b1⟩,
  ⟨0x18, .CLC, .IMPLICIT, 2, false, fun _ _ => .clc⟩,
  ⟨0x19, .ORA, .ABSOLUTE_Y, 4, true, fun b1 b2 => .oraAby (word b1 b2)⟩,
  ⟨0x1D, .ORA, .ABSOLUTE_X, 4, true, fun b1 b2 => .oraAbx (word b1 b2)⟩,
  ⟨0x1E, .ASL, .ABSOLUTE_X, 7, false, fun b1 b2 => .aslAbx (word b1 b2)⟩]

/-- The row `2x` of the opcode map of 30_encoding R58, with the cycles and `+` marks of R59. -/
def rows2x : List Row := [
  ⟨0x20, .JSR, .ABSOLUTE, 6, false, fun b1 b2 => .jsrAbs (word b1 b2)⟩,
  ⟨0x21, .AND, .INDIRECT_X, 6, false, fun b1 _ => .andIzx b1⟩,
  ⟨0x24, .BIT, .ZEROPAGE, 3, false, fun b1 _ => .bitZp b1⟩,
  ⟨0x25, .AND, .ZEROPAGE, 3, false, fun b1 _ => .andZp b1⟩,
  ⟨0x26, .ROL, .ZEROPAGE, 5, false, fun b1 _ => .rolZp b1⟩,
  ⟨0x28, .PLP, .IMPLICIT, 4, false, fun _ _ => .plp⟩,
  ⟨0x29, .AND, .IMMEDIATE, 2, false, fun b1 _ => .andImm b1⟩,
  ⟨0x2A, .ROL, .ACCUMULATOR, 2, false, fun _ _ => .rolAcc⟩,
  ⟨0x2C, .BIT, .ABSOLUTE, 4, false, fun b1 b2 => .bitAbs (word b1 b2)⟩,
  ⟨0x2D, .AND, .ABSOLUTE, 4, false, fun b1 b2 => .andAbs (word b1 b2)⟩,
  ⟨0x2E, .ROL, .ABSOLUTE, 6, false, fun b1 b2 => .rolAbs (word b1 b2)⟩]

/-- The row `3x` of the opcode map of 30_encoding R58, with the cycles and `+` marks of R59. -/
def rows3x : List Row := [
  ⟨0x30, .BMI, .RELATIVE, 2, false, fun b1 _ => .bmiRel b1⟩,
  ⟨0x31, .AND, .INDIRECT_Y, 5, true, fun b1 _ => .andIzy b1⟩,
  ⟨0x35, .AND, .ZEROPAGE_X, 4, false, fun b1 _ => .andZpx b1⟩,
  ⟨0x36, .ROL, .ZEROPAGE_X, 6, false, fun b1 _ => .rolZpx b1⟩,
  ⟨0x38, .SEC, .IMPLICIT, 2, false, fun _ _ => .sec⟩,
  ⟨0x39, .AND, .ABSOLUTE_Y, 4, true, fun b1 b2 => .andAby (word b1 b2)⟩,
  ⟨0x3D, .AND, .ABSOLUTE_X, 4, true, fun b1 b2 => .andAbx (word b1 b2)⟩,
  ⟨0x3E, .ROL, .ABSOLUTE_X, 7, false, fun b1 b2 => .rolAbx (word b1 b2)⟩]

/-- The row `4x` of the opcode map of 30_encoding R58, with the cycles and `+` marks of R59. -/
def rows4x : List Row := [
  ⟨0x40, .RTI, .IMPLICIT, 6, false, fun _ _ => .rti⟩,
  ⟨0x41, .EOR, .INDIRECT_X, 6, false, fun b1 _ => .eorIzx b1⟩,
  ⟨0x45, .EOR, .ZEROPAGE, 3, false, fun b1 _ => .eorZp b1⟩,
  ⟨0x46, .LSR, .ZEROPAGE, 5, false, fun b1 _ => .lsrZp b1⟩,
  ⟨0x48, .PHA, .IMPLICIT, 3, false, fun _ _ => .pha⟩,
  ⟨0x49, .EOR, .IMMEDIATE, 2, false, fun b1 _ => .eorImm b1⟩,
  ⟨0x4A, .LSR, .ACCUMULATOR, 2, false, fun _ _ => .lsrAcc⟩,
  ⟨0x4C, .JMP, .ABSOLUTE, 3, false, fun b1 b2 => .jmpAbs (word b1 b2)⟩,
  ⟨0x4D, .EOR, .ABSOLUTE, 4, false, fun b1 b2 => .eorAbs (word b1 b2)⟩,
  ⟨0x4E, .LSR, .ABSOLUTE, 6, false, fun b1 b2 => .lsrAbs (word b1 b2)⟩]

/-- The row `5x` of the opcode map of 30_encoding R58, with the cycles and `+` marks of R59. -/
def rows5x : List Row := [
  ⟨0x50, .BVC, .RELATIVE, 2, false, fun b1 _ => .bvcRel b1⟩,
  ⟨0x51, .EOR, .INDIRECT_Y, 5, true, fun b1 _ => .eorIzy b1⟩,
  ⟨0x55, .EOR, .ZEROPAGE_X, 4, false, fun b1 _ => .eorZpx b1⟩,
  ⟨0x56, .LSR, .ZEROPAGE_X, 6, false, fun b1 _ => .lsrZpx b1⟩,
  ⟨0x58, .CLI, .IMPLICIT, 2, false, fun _ _ => .cli⟩,
  ⟨0x59, .EOR, .ABSOLUTE_Y, 4, true, fun b1 b2 => .eorAby (word b1 b2)⟩,
  ⟨0x5D, .EOR, .ABSOLUTE_X, 4, true, fun b1 b2 => .eorAbx (word b1 b2)⟩,
  ⟨0x5E, .LSR, .ABSOLUTE_X, 7, false, fun b1 b2 => .lsrAbx (word b1 b2)⟩]

/-- The row `6x` of the opcode map of 30_encoding R58, with the cycles and `+` marks of R59. -/
def rows6x : List Row := [
  ⟨0x60, .RTS, .IMPLICIT, 6, false, fun _ _ => .rts⟩,
  ⟨0x61, .ADC, .INDIRECT_X, 6, false, fun b1 _ => .adcIzx b1⟩,
  ⟨0x65, .ADC, .ZEROPAGE, 3, false, fun b1 _ => .adcZp b1⟩,
  ⟨0x66, .ROR, .ZEROPAGE, 5, false, fun b1 _ => .rorZp b1⟩,
  ⟨0x68, .PLA, .IMPLICIT, 4, false, fun _ _ => .pla⟩,
  ⟨0x69, .ADC, .IMMEDIATE, 2, false, fun b1 _ => .adcImm b1⟩,
  ⟨0x6A, .ROR, .ACCUMULATOR, 2, false, fun _ _ => .rorAcc⟩,
  ⟨0x6C, .JMP, .INDIRECT, 5, false, fun b1 b2 => .jmpInd (word b1 b2)⟩,
  ⟨0x6D, .ADC, .ABSOLUTE, 4, false, fun b1 b2 => .adcAbs (word b1 b2)⟩,
  ⟨0x6E, .ROR, .ABSOLUTE, 6, false, fun b1 b2 => .rorAbs (word b1 b2)⟩]

/-- The row `7x` of the opcode map of 30_encoding R58, with the cycles and `+` marks of R59. -/
def rows7x : List Row := [
  ⟨0x70, .BVS, .RELATIVE, 2, false, fun b1 _ => .bvsRel b1⟩,
  ⟨0x71, .ADC, .INDIRECT_Y, 5, true, fun b1 _ => .adcIzy b1⟩,
  ⟨0x75, .ADC, .ZEROPAGE_X, 4, false, fun b1 _ => .adcZpx b1⟩,
  ⟨0x76, .ROR, .ZEROPAGE_X, 6, false, fun b1 _ => .rorZpx b1⟩,
  ⟨0x78, .SEI, .IMPLICIT, 2, false, fun _ _ => .sei⟩,
  ⟨0x79, .ADC, .ABSOLUTE_Y, 4, true, fun b1 b2 => .adcAby (word b1 b2)⟩,
  ⟨0x7D, .ADC, .ABSOLUTE_X, 4, true, fun b1 b2 => .adcAbx (word b1 b2)⟩,
  ⟨0x7E, .ROR, .ABSOLUTE_X, 7, false, fun b1 b2 => .rorAbx (word b1 b2)⟩]

/-- The row `8x` of the opcode map of 30_encoding R58, with the cycles and `+` marks of R59. -/
def rows8x : List Row := [
  ⟨0x81, .STA, .INDIRECT_X, 6, false, fun b1 _ => .staIzx b1⟩,
  ⟨0x84, .STY, .ZEROPAGE, 3, false, fun b1 _ => .styZp b1⟩,
  ⟨0x85, .STA, .ZEROPAGE, 3, false, fun b1 _ => .staZp b1⟩,
  ⟨0x86, .STX, .ZEROPAGE, 3, false, fun b1 _ => .stxZp b1⟩,
  ⟨0x88, .DEY, .IMPLICIT, 2, false, fun _ _ => .dey⟩,
  ⟨0x8A, .TXA, .IMPLICIT, 2, false, fun _ _ => .txa⟩,
  ⟨0x8C, .STY, .ABSOLUTE, 4, false, fun b1 b2 => .styAbs (word b1 b2)⟩,
  ⟨0x8D, .STA, .ABSOLUTE, 4, false, fun b1 b2 => .staAbs (word b1 b2)⟩,
  ⟨0x8E, .STX, .ABSOLUTE, 4, false, fun b1 b2 => .stxAbs (word b1 b2)⟩]

/-- The row `9x` of the opcode map of 30_encoding R58, with the cycles and `+` marks of R59. -/
def rows9x : List Row := [
  ⟨0x90, .BCC, .RELATIVE, 2, false, fun b1 _ => .bccRel b1⟩,
  ⟨0x91, .STA, .INDIRECT_Y, 6, false, fun b1 _ => .staIzy b1⟩,
  ⟨0x94, .STY, .ZEROPAGE_X, 4, false, fun b1 _ => .styZpx b1⟩,
  ⟨0x95, .STA, .ZEROPAGE_X, 4, false, fun b1 _ => .staZpx b1⟩,
  ⟨0x96, .STX, .ZEROPAGE_Y, 4, false, fun b1 _ => .stxZpy b1⟩,
  ⟨0x98, .TYA, .IMPLICIT, 2, false, fun _ _ => .tya⟩,
  ⟨0x99, .STA, .ABSOLUTE_Y, 5, false, fun b1 b2 => .staAby (word b1 b2)⟩,
  ⟨0x9A, .TXS, .IMPLICIT, 2, false, fun _ _ => .txs⟩,
  ⟨0x9D, .STA, .ABSOLUTE_X, 5, false, fun b1 b2 => .staAbx (word b1 b2)⟩]

/-- The row `Ax` of the opcode map of 30_encoding R58, with the cycles and `+` marks of R59. -/
def rowsAx : List Row := [
  ⟨0xA0, .LDY, .IMMEDIATE, 2, false, fun b1 _ => .ldyImm b1⟩,
  ⟨0xA1, .LDA, .INDIRECT_X, 6, false, fun b1 _ => .ldaIzx b1⟩,
  ⟨0xA2, .LDX, .IMMEDIATE, 2, false, fun b1 _ => .ldxImm b1⟩,
  ⟨0xA4, .LDY, .ZEROPAGE, 3, false, fun b1 _ => .ldyZp b1⟩,
  ⟨0xA5, .LDA, .ZEROPAGE, 3, false, fun b1 _ => .ldaZp b1⟩,
  ⟨0xA6, .LDX, .ZEROPAGE, 3, false, fun b1 _ => .ldxZp b1⟩,
  ⟨0xA8, .TAY, .IMPLICIT, 2, false, fun _ _ => .tay⟩,
  ⟨0xA9, .LDA, .IMMEDIATE, 2, false, fun b1 _ => .ldaImm b1⟩,
  ⟨0xAA, .TAX, .IMPLICIT, 2, false, fun _ _ => .tax⟩,
  ⟨0xAC, .LDY, .ABSOLUTE, 4, false, fun b1 b2 => .ldyAbs (word b1 b2)⟩,
  ⟨0xAD, .LDA, .ABSOLUTE, 4, false, fun b1 b2 => .ldaAbs (word b1 b2)⟩,
  ⟨0xAE, .LDX, .ABSOLUTE, 4, false, fun b1 b2 => .ldxAbs (word b1 b2)⟩]

/-- The row `Bx` of the opcode map of 30_encoding R58, with the cycles and `+` marks of R59. -/
def rowsBx : List Row := [
  ⟨0xB0, .BCS, .RELATIVE, 2, false, fun b1 _ => .bcsRel b1⟩,
  ⟨0xB1, .LDA, .INDIRECT_Y, 5, true, fun b1 _ => .ldaIzy b1⟩,
  ⟨0xB4, .LDY, .ZEROPAGE_X, 4, false, fun b1 _ => .ldyZpx b1⟩,
  ⟨0xB5, .LDA, .ZEROPAGE_X, 4, false, fun b1 _ => .ldaZpx b1⟩,
  ⟨0xB6, .LDX, .ZEROPAGE_Y, 4, false, fun b1 _ => .ldxZpy b1⟩,
  ⟨0xB8, .CLV, .IMPLICIT, 2, false, fun _ _ => .clv⟩,
  ⟨0xB9, .LDA, .ABSOLUTE_Y, 4, true, fun b1 b2 => .ldaAby (word b1 b2)⟩,
  ⟨0xBA, .TSX, .IMPLICIT, 2, false, fun _ _ => .tsx⟩,
  ⟨0xBC, .LDY, .ABSOLUTE_X, 4, true, fun b1 b2 => .ldyAbx (word b1 b2)⟩,
  ⟨0xBD, .LDA, .ABSOLUTE_X, 4, true, fun b1 b2 => .ldaAbx (word b1 b2)⟩,
  ⟨0xBE, .LDX, .ABSOLUTE_Y, 4, true, fun b1 b2 => .ldxAby (word b1 b2)⟩]

/-- The row `Cx` of the opcode map of 30_encoding R58, with the cycles and `+` marks of R59. -/
def rowsCx : List Row := [
  ⟨0xC0, .CPY, .IMMEDIATE, 2, false, fun b1 _ => .cpyImm b1⟩,
  ⟨0xC1, .CMP, .INDIRECT_X, 6, false, fun b1 _ => .cmpIzx b1⟩,
  ⟨0xC4, .CPY, .ZEROPAGE, 3, false, fun b1 _ => .cpyZp b1⟩,
  ⟨0xC5, .CMP, .ZEROPAGE, 3, false, fun b1 _ => .cmpZp b1⟩,
  ⟨0xC6, .DEC, .ZEROPAGE, 5, false, fun b1 _ => .decZp b1⟩,
  ⟨0xC8, .INY, .IMPLICIT, 2, false, fun _ _ => .iny⟩,
  ⟨0xC9, .CMP, .IMMEDIATE, 2, false, fun b1 _ => .cmpImm b1⟩,
  ⟨0xCA, .DEX, .IMPLICIT, 2, false, fun _ _ => .dex⟩,
  ⟨0xCC, .CPY, .ABSOLUTE, 4, false, fun b1 b2 => .cpyAbs (word b1 b2)⟩,
  ⟨0xCD, .CMP, .ABSOLUTE, 4, false, fun b1 b2 => .cmpAbs (word b1 b2)⟩,
  ⟨0xCE, .DEC, .ABSOLUTE, 6, false, fun b1 b2 => .decAbs (word b1 b2)⟩]

/-- The row `Dx` of the opcode map of 30_encoding R58, with the cycles and `+` marks of R59. -/
def rowsDx : List Row := [
  ⟨0xD0, .BNE, .RELATIVE, 2, false, fun b1 _ => .bneRel b1⟩,
  ⟨0xD1, .CMP, .INDIRECT_Y, 5, true, fun b1 _ => .cmpIzy b1⟩,
  ⟨0xD5, .CMP, .ZEROPAGE_X, 4, false, fun b1 _ => .cmpZpx b1⟩,
  ⟨0xD6, .DEC, .ZEROPAGE_X, 6, false, fun b1 _ => .decZpx b1⟩,
  ⟨0xD8, .CLD, .IMPLICIT, 2, false, fun _ _ => .cld⟩,
  ⟨0xD9, .CMP, .ABSOLUTE_Y, 4, true, fun b1 b2 => .cmpAby (word b1 b2)⟩,
  ⟨0xDD, .CMP, .ABSOLUTE_X, 4, true, fun b1 b2 => .cmpAbx (word b1 b2)⟩,
  ⟨0xDE, .DEC, .ABSOLUTE_X, 7, false, fun b1 b2 => .decAbx (word b1 b2)⟩]

/-- The row `Ex` of the opcode map of 30_encoding R58, with the cycles and `+` marks of R59. -/
def rowsEx : List Row := [
  ⟨0xE0, .CPX, .IMMEDIATE, 2, false, fun b1 _ => .cpxImm b1⟩,
  ⟨0xE1, .SBC, .INDIRECT_X, 6, false, fun b1 _ => .sbcIzx b1⟩,
  ⟨0xE4, .CPX, .ZEROPAGE, 3, false, fun b1 _ => .cpxZp b1⟩,
  ⟨0xE5, .SBC, .ZEROPAGE, 3, false, fun b1 _ => .sbcZp b1⟩,
  ⟨0xE6, .INC, .ZEROPAGE, 5, false, fun b1 _ => .incZp b1⟩,
  ⟨0xE8, .INX, .IMPLICIT, 2, false, fun _ _ => .inx⟩,
  ⟨0xE9, .SBC, .IMMEDIATE, 2, false, fun b1 _ => .sbcImm b1⟩,
  ⟨0xEA, .NOP, .IMPLICIT, 2, false, fun _ _ => .nop⟩,
  ⟨0xEC, .CPX, .ABSOLUTE, 4, false, fun b1 b2 => .cpxAbs (word b1 b2)⟩,
  ⟨0xED, .SBC, .ABSOLUTE, 4, false, fun b1 b2 => .sbcAbs (word b1 b2)⟩,
  ⟨0xEE, .INC, .ABSOLUTE, 6, false, fun b1 b2 => .incAbs (word b1 b2)⟩]

/-- The row `Fx` of the opcode map of 30_encoding R58, with the cycles and `+` marks of R59. -/
def rowsFx : List Row := [
  ⟨0xF0, .BEQ, .RELATIVE, 2, false, fun b1 _ => .beqRel b1⟩,
  ⟨0xF1, .SBC, .INDIRECT_Y, 5, true, fun b1 _ => .sbcIzy b1⟩,
  ⟨0xF5, .SBC, .ZEROPAGE_X, 4, false, fun b1 _ => .sbcZpx b1⟩,
  ⟨0xF6, .INC, .ZEROPAGE_X, 6, false, fun b1 _ => .incZpx b1⟩,
  ⟨0xF8, .SED, .IMPLICIT, 2, false, fun _ _ => .sed⟩,
  ⟨0xF9, .SBC, .ABSOLUTE_Y, 4, true, fun b1 b2 => .sbcAby (word b1 b2)⟩,
  ⟨0xFD, .SBC, .ABSOLUTE_X, 4, true, fun b1 b2 => .sbcAbx (word b1 b2)⟩,
  ⟨0xFE, .INC, .ABSOLUTE_X, 7, false, fun b1 b2 => .incAbx (word b1 b2)⟩]

/-- The 151 assigned entries of `Dispatch` (30_encoding R58). -/
def dispatchRows : List Row :=
  rows0x ++ rows1x ++ rows2x ++ rows3x ++ rows4x ++ rows5x ++ rows6x ++ rows7x ++
  rows8x ++ rows9x ++ rowsAx ++ rowsBx ++ rowsCx ++ rowsDx ++ rowsEx ++ rowsFx

/-- `Dispatch[opcode]`: `none` is an illegal byte (30_encoding R55, R60). -/
def dispatch (opcode : Byte) : Option Row := dispatchRows.find? fun r => r.opcode == opcode

/-- What decoding a list of bytes answers; both rejections carry the opcode byte. -/
inductive Decoded where
  /-- An instruction and the bytes after it. -/
  | ok (i : Instr) (rest : List Byte)
  /-- The opcode byte is one of the 105 unassigned values (30_encoding R60). -/
  | illegalOpcode (opcode : Byte)
  /-- The bytes end before the operand does (30_encoding R56). -/
  | incomplete (opcode : Byte)
  /-- There is no byte to decode. -/
  | noBytes
  deriving DecidableEq, Repr

/-- Assemble an instruction of a known row from the bytes after the opcode, as many as its mode's width needs
(30_encoding R54, R57). -/
def assemble (r : Row) (rest : List Byte) : Decoded :=
  match width r.mode, rest with
  | 1, rest => .ok (r.make 0 0) rest
  | 2, b1 :: rest => .ok (r.make b1 0) rest
  | 3, b1 :: b2 :: rest => .ok (r.make b1 b2) rest
  | _, _ => .incomplete r.opcode

/-- The decoder, total on any bytes (30_encoding R55). -/
def decode : List Byte → Decoded
  | [] => .noBytes
  | opcode :: rest =>
    match dispatch opcode with
    | none => .illegalOpcode opcode
    | some r => assemble r rest

/-- The opcode byte of each constructor, from the encodings listed by mnemonic in 30_encoding R59. -/
def Instr.opcode : Instr → Byte
  | .ldaImm _ => 0xA9
  | .ldaZp _ => 0xA5
  | .ldaZpx _ => 0xB5
  | .ldaAbs _ => 0xAD
  | .ldaAbx _ => 0xBD
  | .ldaAby _ => 0xB9
  | .ldaIzx _ => 0xA1
  | .ldaIzy _ => 0xB1
  | .ldxImm _ => 0xA2
  | .ldxZp _ => 0xA6
  | .ldxZpy _ => 0xB6
  | .ldxAbs _ => 0xAE
  | .ldxAby _ => 0xBE
  | .ldyImm _ => 0xA0
  | .ldyZp _ => 0xA4
  | .ldyZpx _ => 0xB4
  | .ldyAbs _ => 0xAC
  | .ldyAbx _ => 0xBC
  | .adcImm _ => 0x69
  | .adcZp _ => 0x65
  | .adcZpx _ => 0x75
  | .adcAbs _ => 0x6D
  | .adcAbx _ => 0x7D
  | .adcAby _ => 0x79
  | .adcIzx _ => 0x61
  | .adcIzy _ => 0x71
  | .sbcImm _ => 0xE9
  | .sbcZp _ => 0xE5
  | .sbcZpx _ => 0xF5
  | .sbcAbs _ => 0xED
  | .sbcAbx _ => 0xFD
  | .sbcAby _ => 0xF9
  | .sbcIzx _ => 0xE1
  | .sbcIzy _ => 0xF1
  | .andImm _ => 0x29
  | .andZp _ => 0x25
  | .andZpx _ => 0x35
  | .andAbs _ => 0x2D
  | .andAbx _ => 0x3D
  | .andAby _ => 0x39
  | .andIzx _ => 0x21
  | .andIzy _ => 0x31
  | .oraImm _ => 0x09
  | .oraZp _ => 0x05
  | .oraZpx _ => 0x15
  | .oraAbs _ => 0x0D
  | .oraAbx _ => 0x1D
  | .oraAby _ => 0x19
  | .oraIzx _ => 0x01
  | .oraIzy _ => 0x11
  | .eorImm _ => 0x49
  | .eorZp _ => 0x45
  | .eorZpx _ => 0x55
  | .eorAbs _ => 0x4D
  | .eorAbx _ => 0x5D
  | .eorAby _ => 0x59
  | .eorIzx _ => 0x41
  | .eorIzy _ => 0x51
  | .cmpImm _ => 0xC9
  | .cmpZp _ => 0xC5
  | .cmpZpx _ => 0xD5
  | .cmpAbs _ => 0xCD
  | .cmpAbx _ => 0xDD
  | .cmpAby _ => 0xD9
  | .cmpIzx _ => 0xC1
  | .cmpIzy _ => 0xD1
  | .cpxImm _ => 0xE0
  | .cpxZp _ => 0xE4
  | .cpxAbs _ => 0xEC
  | .cpyImm _ => 0xC0
  | .cpyZp _ => 0xC4
  | .cpyAbs _ => 0xCC
  | .bitZp _ => 0x24
  | .bitAbs _ => 0x2C
  | .aslAcc => 0x0A
  | .aslZp _ => 0x06
  | .aslZpx _ => 0x16
  | .aslAbs _ => 0x0E
  | .aslAbx _ => 0x1E
  | .lsrAcc => 0x4A
  | .lsrZp _ => 0x46
  | .lsrZpx _ => 0x56
  | .lsrAbs _ => 0x4E
  | .lsrAbx _ => 0x5E
  | .rolAcc => 0x2A
  | .rolZp _ => 0x26
  | .rolZpx _ => 0x36
  | .rolAbs _ => 0x2E
  | .rolAbx _ => 0x3E
  | .rorAcc => 0x6A
  | .rorZp _ => 0x66
  | .rorZpx _ => 0x76
  | .rorAbs _ => 0x6E
  | .rorAbx _ => 0x7E
  | .incZp _ => 0xE6
  | .incZpx _ => 0xF6
  | .incAbs _ => 0xEE
  | .incAbx _ => 0xFE
  | .decZp _ => 0xC6
  | .decZpx _ => 0xD6
  | .decAbs _ => 0xCE
  | .decAbx _ => 0xDE
  | .inx => 0xE8
  | .iny => 0xC8
  | .dex => 0xCA
  | .dey => 0x88
  | .staZp _ => 0x85
  | .staZpx _ => 0x95
  | .staAbs _ => 0x8D
  | .staAbx _ => 0x9D
  | .staAby _ => 0x99
  | .staIzx _ => 0x81
  | .staIzy _ => 0x91
  | .stxZp _ => 0x86
  | .stxZpy _ => 0x96
  | .stxAbs _ => 0x8E
  | .styZp _ => 0x84
  | .styZpx _ => 0x94
  | .styAbs _ => 0x8C
  | .bccRel _ => 0x90
  | .bcsRel _ => 0xB0
  | .beqRel _ => 0xF0
  | .bneRel _ => 0xD0
  | .bmiRel _ => 0x30
  | .bplRel _ => 0x10
  | .bvcRel _ => 0x50
  | .bvsRel _ => 0x70
  | .jmpAbs _ => 0x4C
  | .jmpInd _ => 0x6C
  | .jsrAbs _ => 0x20
  | .rts => 0x60
  | .rti => 0x40
  | .pha => 0x48
  | .php => 0x08
  | .pla => 0x68
  | .plp => 0x28
  | .tax => 0xAA
  | .tay => 0xA8
  | .txa => 0x8A
  | .tya => 0x98
  | .tsx => 0xBA
  | .txs => 0x9A
  | .clc => 0x18
  | .cld => 0xD8
  | .cli => 0x58
  | .clv => 0xB8
  | .sec => 0x38
  | .sed => 0xF8
  | .sei => 0x78
  | .brk => 0x00
  | .nop => 0xEA

/-- The operand bytes, low byte first (30_encoding R57). -/
def OperandField.bytes : OperandField → List Byte
  | .absent => []
  | .u8 b => [b]
  | .u16 w => [lo8 w, hi8 w]

/-- The encoder: the opcode byte, then the operand bytes (30_encoding R53). -/
def encode (i : Instr) : List Byte := i.opcode :: i.descriptor.operand.bytes

/-- `nbits` bits of a table word as the three bytes from the first address on; every bit above `nbits` is 0. Bit 0 is the
least significant bit of the first byte. -/
def tableBytes (nbits w : Nat) : List Byte :=
  let w := w % 2 ^ nbits
  [BitVec.ofNat 8 w, BitVec.ofNat 8 (w / 2 ^ 8), BitVec.ofNat 8 (w / 2 ^ 16)]

/-- The instruction the decoder reads from a table word. -/
def decodeTableWord (nbits w : Nat) : Option Instr :=
  match decode (tableBytes nbits w) with
  | .ok i _ => some i
  | _ => none

end Sys2Proof
end

