-- ==== Sys2Proof/Config.lean ====
section
/-! DEFINITION. The parameters of 00_scope R6, the open policy of 60_exceptions R206, and the free values. -/

namespace Sys2Proof

/-- What happens to an NMI edge that a step finds latched while NMI is disabled (60_exceptions R206). -/
inductive NmiPolicy where
  | drop
  | hold
  deriving DecidableEq, Repr, Inhabited

/-- The answer of the environment to the `n`-th read of a device register or of an unmapped address (20_memory R30,
R44: "a free answer of the environment (any u8)"). It has no value that Lean can see (log 2). -/
opaque Config.freeByte : Nat → Byte

/-- `NMI_DISABLED_POLICY`, left OPEN by the spec (D14): a claim holds for both values (log 10). -/
opaque Config.nmiDisabledPolicy : NmiPolicy

namespace Config

/-- `STACK_PAGE` (R6). -/
abbrev stackPage : Byte := 0x01
/-- `NMI_VECTOR` (R6, D5). -/
abbrev nmiVector : Addr := 0xFFFA
/-- `RESET_VECTOR` (R6, D5). -/
abbrev resetVector : Addr := 0xFFFC
/-- `BRK_VECTOR` (R6, D5). -/
abbrev brkVector : Addr := 0xFFFE
/-- `DMA_TRIGGER_ADDR` (R6, D18). -/
abbrev dmaTriggerAddr : Addr := 0x4014
/-- `PPU_CTRL_INDEX` (R6, D18). -/
abbrev ppuCtrlIndex : Nat := 0
/-- `RESET_A` (R6, D6). -/
abbrev resetA : Byte := 0x00
/-- `RESET_X` (R6, D6). -/
abbrev resetX : Byte := 0x00
/-- `RESET_Y` (R6, D6). -/
abbrev resetY : Byte := 0x00
/-- `RESET_SP` (R6, D6). -/
abbrev resetSP : Byte := 0xFD
/-- `RESET_P` (R6, D6). -/
abbrev resetP : Byte := 0x24
/-- `INTERRUPT_CYCLES` (R6): NMI service and BRK. -/
abbrev interruptCycles : Nat := 7
/-- `DMA_CYCLES_EVEN` (R6). -/
abbrev dmaCyclesEven : Nat := 513
/-- `DMA_CYCLES_ODD` (R6). -/
abbrev dmaCyclesOdd : Nat := 514

end Config

/-- The two parameters of R6 that the step itself consults: the policy for an NMI edge while disabled, and the
predicate `FetchAvailable` of 30_encoding R56. -/
structure Params where
  nmiPolicy : NmiPolicy
  fetchAvailable : Addr → Bool

/-- This hardware: the policy is open, and `FetchAvailable` is "total: true for every address" (R6, D23; log 11). -/
def Params.hardware : Params :=
  { nmiPolicy := Config.nmiDisabledPolicy, fetchAvailable := fun _ => true }

end Sys2Proof
end

