-- ==== Sys2Proof/Machine/Memory.lean ====
section
/-! DEFINITION. Byte storage as a list of cells in one canonical form: RAM and PRG in `State.mem`, the OAM in `State.oam`. -/

namespace Sys2Proof.Machine

/-- Cells by key: strictly rising keys, and no cell equal to what an unlisted key reads as. -/
abbrev Memory := List Host.Cell

namespace Memory

/-- What an unlisted cell reads as. The spec leaves the launch contents to the launch (20_memory R46, D27); DESIGN CHOICE:
unlisted bytes are `0x00` (log 1, log 3). -/
def unlisted : Byte := 0x00

/-- The byte of a cell. -/
def read : Memory → Nat → Byte
  | [], _ => unlisted
  | (k, v) :: m, a => if k = a then v else read m a

/-- Remove every entry of a cell. -/
def erase : Memory → Nat → Memory
  | [], _ => []
  | (k, v) :: m, a => if k = a then erase m a else (k, v) :: erase m a

/-- Put an entry before the first larger key. -/
def insert : Memory → Nat → Byte → Memory
  | [], a, v => [(a, v)]
  | (k, w) :: m, a, v => if a < k then (a, v) :: (k, w) :: m else (k, w) :: insert m a v

/-- Write one byte, keeping the canonical form: writing the unlisted value removes the entry. -/
def write (m : Memory) (a : Nat) (v : Byte) : Memory :=
  if v = unlisted then erase m a else insert (erase m a) a v

/-- The canonical form. -/
def wf : Memory → Bool
  | [] => true
  | (k, v) :: m => v != unlisted && m.all (fun c => k < c.1) && wf m

end Memory

end Sys2Proof.Machine
end

