-- ==== Sys2Proof/Machine/State.lean ====
section
/-! DEFINITION. The state of the machine as plain data (10_state R10 to R25), the faults (60_exceptions R220), the refusals,
and the state after reset. -/

namespace Sys2Proof.Machine

/-- The seven stored bits of P (10_state R13). Bit 5 is hardwired 1 and is not stored (R14): `Status.toByte` shows it
(log 5). -/
structure Status where
  n : Bool
  v : Bool
  b : Bool
  d : Bool
  i : Bool
  z : Bool
  c : Bool
  deriving DecidableEq, Repr

/-- The mapper variant, "chosen once at cartridge load, never swapped while running" (20_memory R43). -/
inductive Mapper where
  /-- Direct-mapped 32 KiB PRG. -/
  | prg32
  /-- Direct-mapped single 16 KiB PRG bank, mirrored into both halves of `0x8000`-`0xFFFF`. -/
  | prg16
  /-- The "no-op/unmapped variant for incomplete cartridge types". -/
  | unmapped
  deriving DecidableEq, Repr

/-- One bus transaction: what CORE sends and what it gets back (00_scope R5). -/
inductive BusEvent where
  /-- `MemRead(addr, 1)` answered `v`. -/
  | read (addr : Addr) (v : Byte)
  /-- `MemWrite(addr, 1, v)`. -/
  | write (addr : Addr) (v : Byte)
  /-- `OamWrite(i, v)`. -/
  | oamWrite (i : Byte) (v : Byte)
  deriving DecidableEq, Repr

/-- The fatal faults of 60_exceptions R220, each the fault record `{code, addr, opcode}` of 10_state R21. -/
inductive Fault where
  /-- Code 1 (R221): the dispatch entry's (mnemonic, mode) pair is not a legal one. Raised by instruction fetch; with the
  spec's table no run reaches it. Safe: the machine stops where the spec stops. -/
  | unsupportedMode (addr : Addr) (opcode : Byte)
  /-- Code 2 (R222): an instruction byte is not available. Raised by instruction fetch when `FetchAvailable` is false; this
  hardware's is total. Safe: the machine stops where the spec stops. -/
  | incompleteInstruction (addr : Addr) (opcode : Byte)
  /-- Code 3 (R223): a bus access with no backing cell. No operation of the model raises it, since the bus answers every
  address; a record may still hold it. Safe: the spec calls it unreachable (log 14). -/
  | outOfRangeAddress (addr : Addr) (opcode : Byte)
  /-- Code 4 (R224): the opcode byte is one of the 105 unassigned values. Raised by instruction fetch. Safe: the machine
  stops where the spec stops. -/
  | illegalOpcode (addr : Addr) (opcode : Byte)
  deriving DecidableEq, Repr

/-- The reasons the model refuses a step. -/
inductive Refusal where
  /-- Raised by an arm of `exec` whose instruction has no meaning yet; no arm does. Safe. -/
  | notModelled (mnemonic : String)
  deriving DecidableEq, Repr

/-- The whole machine: CORE's registers and latches (10_state R10 to R21), the environment the launch supplies
(20_memory R40, R43, R46), and the model's own fields `answers`, `cycles`, `bus`. -/
structure State where
  /-- Accumulator (R10). -/
  a : Byte
  /-- Index register X (R10). -/
  x : Byte
  /-- Index register Y (R10). -/
  y : Byte
  /-- Stack pointer, an offset into the stack page (R12). -/
  sp : Byte
  /-- Program counter: between steps, the address of the next opcode (R11). -/
  pc : Addr
  /-- Status register (R13). -/
  p : Status
  /-- `nmi_pending` (R20). -/
  nmiPending : Bool
  /-- `nmi_en` (R20). -/
  nmiEn : Bool
  /-- `dma_pending` (R20). -/
  dmaPending : Bool
  /-- `dma_page` (R20). -/
  dmaPage : Byte
  /-- `svc_nmi` (R20). -/
  svcNmi : Bool
  /-- `cyc_odd` (R20). -/
  cycOdd : Bool
  /-- The fault record; CORE is halted exactly while it is there (R21, log 6). -/
  fault : Option Fault
  /-- The active mapper (20_memory R43). -/
  mapper : Mapper
  /-- RAM under the keys `0x0000`-`0x07FF` and PRG ROM under `0x8000`-`0xFFFF` (20_memory R40, R43). -/
  mem : Memory
  /-- The collaborator's object-attribute memory as DMA wrote it (20_memory R38). -/
  oam : Memory
  /-- The MODEL's own: how many free answers the environment has given (log 2). -/
  answers : Nat
  /-- The MODEL's own: the count the last completed `Step()` returned, 0 while there is none (log 8). -/
  cycles : Nat
  /-- The MODEL's own: the bus transactions of the last step or reset, newest first (log 9). -/
  bus : List BusEvent
  deriving DecidableEq, Repr

/-- `halted` (10_state R21). -/
def State.halted (s : State) : Bool := s.fault.isSome

/-- The machine right after `Reset()` on an empty launch image (10_state R24, 70_reset R240). PC is the word at the reset
vector, whose two reads are the bus transactions of the reset. The values are the spec's decisions (log 4), the launch image is
log 1, log 3 and log 7, and `answers`, `cycles`, `bus` are log 2, log 8, log 9. -/
def State.reset : State where
  a := Config.resetA
  x := Config.resetX
  y := Config.resetY
  sp := Config.resetSP
  pc := word Memory.unlisted Memory.unlisted
  p := { n := false, v := false, b := false, d := false, i := true, z := false, c := false }
  nmiPending := false
  nmiEn := false
  dmaPending := false
  dmaPage := 0x00
  svcNmi := false
  cycOdd := false
  fault := none
  mapper := .prg32
  mem := []
  oam := []
  answers := 0
  cycles := 0
  bus := [.read (Config.resetVector + 1) Memory.unlisted, .read Config.resetVector Memory.unlisted]

end Sys2Proof.Machine
end

