-- ==== Sys2Proof/Machine/Flags.lean ====
section
/-! DEFINITION. The status byte (10_state R13 to R17) and every flag computation of the instruction rules. -/

namespace Sys2Proof.Machine

/-- `P` as a byte, `{N, V, 1, B, D, I, Z, C}`, with bit 5 read as 1 (10_state R13, R14). -/
def Status.toByte (p : Status) : Byte :=
  BitVec.ofBool p.n ++ BitVec.ofBool p.v ++ BitVec.ofBool true ++ BitVec.ofBool p.b ++
    BitVec.ofBool p.d ++ BitVec.ofBool p.i ++ BitVec.ofBool p.z ++ BitVec.ofBool p.c

/-- `PLoad(v)` (10_state R16): every stored bit from its place in the byte; bit 5 of the byte is ignored. -/
def Status.ofByte (v : Byte) : Status :=
  { n := v.getLsbD 7, v := v.getLsbD 6, b := v.getLsbD 4, d := v.getLsbD 3, i := v.getLsbD 2, z := v.getLsbD 1
    c := v.getLsbD 0 }

/-- `PImage(set)`, pushed by PHP and BRK (10_state R15). -/
def Status.imageSet (p : Status) : Byte := p.toByte ||| 0x30

/-- `PImage(asis)`, pushed by NMI service (10_state R15). -/
def Status.imageAsIs (p : Status) : Byte := p.toByte ||| 0x20

/-- `SetZN(v)` (10_state R17). -/
def Status.setZN (p : Status) (v : Byte) : Status := { p with z := v == 0, n := v.getLsbD 7 }

/-- The untruncated sum `A + v + C` (41_load_alu R94). -/
def adcSum (a v : Byte) (c : Bool) : Nat := a.toNat + v.toNat + c.toNat

/-- The result byte of ADC (R94). -/
def adcResult (a v : Byte) (c : Bool) : Byte := BitVec.ofNat 8 (adcSum a v c)

/-- C after ADC (R94). -/
def adcCarry (a v : Byte) (c : Bool) : Bool := decide (adcSum a v c > 0xFF)

/-- V after ADC (R94), from A before the write. -/
def adcOverflow (a v : Byte) (c : Bool) : Bool :=
  (a ^^^ adcResult a v c) &&& (v ^^^ adcResult a v c) &&& 0x80 != 0

/-- The flags of ADC (R94); D is not read (D24). -/
def Status.afterAdc (p : Status) (a v : Byte) : Status :=
  { p with c := adcCarry a v p.c, v := adcOverflow a v p.c }.setZN (adcResult a v p.c)

/-- C, Z, N of a compare of `r` with `v` (41_load_alu R99 to R101); V and the incoming C play no part. -/
def Status.afterCompare (p : Status) (r v : Byte) : Status :=
  { p with c := decide (v.toNat ≤ r.toNat), z := r == v, n := (r - v).getLsbD 7 }

/-- Z, N, V of BIT (41_load_alu R102). -/
def Status.afterBit (p : Status) (a v : Byte) : Status :=
  { p with z := a &&& v == 0, n := v.getLsbD 7, v := v.getLsbD 6 }

/-- ASL: result and flags (42_shift_incdec R111). -/
def aslOp (v : Byte) (p : Status) : Byte × Status :=
  let r := v <<< 1
  (r, { p with c := v.getLsbD 7 }.setZN r)

/-- LSR: result and flags (R112). -/
def lsrOp (v : Byte) (p : Status) : Byte × Status :=
  let r := v >>> 1
  (r, { p with c := v.getLsbD 0 }.setZN r)

/-- ROL: the old C enters bit 0, the old bit 7 leaves into C (R113). -/
def rolOp (v : Byte) (p : Status) : Byte × Status :=
  let r := v <<< 1 ||| (BitVec.ofBool p.c).setWidth 8
  (r, { p with c := v.getLsbD 7 }.setZN r)

/-- ROR: the old C enters bit 7, the old bit 0 leaves into C (R114). -/
def rorOp (v : Byte) (p : Status) : Byte × Status :=
  let r := v >>> 1 ||| (BitVec.ofBool p.c).setWidth 8 <<< 7
  (r, { p with c := v.getLsbD 0 }.setZN r)

/-- INC: result and flags; C and V unchanged (R115). -/
def incOp (v : Byte) (p : Status) : Byte × Status := (v + 1, p.setZN (v + 1))

/-- DEC: result and flags; C and V unchanged (R116). -/
def decOp (v : Byte) (p : Status) : Byte × Status := (v - 1, p.setZN (v - 1))

end Sys2Proof.Machine
end

