-- ==== Sys2Proof/Machine/Ops.lean ====
section
/-! DEFINITION. The named operations: the bus and its address map (20_memory R30 to R47), the stack (R35, R36), the write
snoops (R31), entering and leaving an interrupt (R190, R205, R153), and the environment's events (R203, R240). -/

namespace Sys2Proof.Machine

/-- What backs a CPU address (20_memory R39). -/
inductive Backing where
  /-- Internal RAM, by its lowest address (R40). -/
  | ram (cell : Nat)
  /-- A collaborator register, 0 to 7 (R41). -/
  | ppu (reg : Nat)
  /-- An APU/IO register (R42). -/
  | apuIo (addr : Nat)
  /-- A PRG byte, by its lowest address (R43). -/
  | prg (cell : Nat)
  /-- No cell (R44). -/
  | unmapped
  deriving DecidableEq, Repr

/-- Cartridge space `0x8000`-`0xFFFF` by mapper variant (20_memory R43). -/
def Mapper.prgBacking (m : Mapper) (n : Nat) : Backing :=
  match m with
  | .prg32 => .prg n
  | .prg16 => .prg (0x8000 + (n - 0x8000) % 0x4000)
  | .unmapped => .unmapped

/-- The bus router: every address resolves, RAM mirrored every `0x0800`, the register window every 8; `0x4018`-`0x401F` and
`0x4020`-`0x7FFF` are unmapped (20_memory R39 to R44, D29). -/
def Mapper.backing (m : Mapper) (addr : Addr) : Backing :=
  let n := addr.toNat
  if n < 0x2000 then .ram (n % 0x0800)
  else if n < 0x4000 then .ppu (n % 8)
  else if n < 0x4018 then .apuIo n
  else if n < 0x8000 then .unmapped
  else m.prgBacking n

/-- The key of the stored byte behind an address, for RAM and PRG. -/
def Backing.cell : Backing → Option Nat
  | .ram c | .prg c => some c
  | .ppu _ | .apuIo _ | .unmapped => none

/-- The stored cell an address reads, if it has one. -/
def State.cell (s : State) (addr : Addr) : Option Nat := (s.mapper.backing addr).cell

/-- The stored byte at an address; `none` where no stored byte stands behind it (a device register or no cell). -/
def State.byteAt (s : State) (addr : Addr) : Option Byte := (s.cell addr).map s.mem.read

/-- What a read of `addr` is answered now: the stored byte, or a free answer of the environment (20_memory R30, R44). -/
def State.answer (s : State) (addr : Addr) : Byte := (s.byteAt addr).getD (Config.freeByte s.answers)

/-- The state after a read of `addr`: the transaction is on the bus, and a free answer is used up. -/
def State.afterRead (s : State) (addr : Addr) : State :=
  { s with
    answers := if (s.cell addr).isSome then s.answers else s.answers + 1
    bus := .read addr (s.answer addr) :: s.bus }

/-- `MemRead(addr, 1)` (20_memory R30). -/
def State.memRead (s : State) (addr : Addr) : Byte × State := (s.answer addr, s.afterRead addr)

/-- The bus transfer of a write: RAM takes the byte, ROM and unmapped addresses drop it, a device is told (20_memory R40 to
R44). -/
def State.busWrite (s : State) (addr : Addr) (v : Byte) : State :=
  { s with
    mem := match s.mapper.backing addr with
      | .ram c => s.mem.write c v
      | .ppu _ | .apuIo _ | .prg _ | .unmapped => s.mem
    bus := .write addr v :: s.bus }

/-- The addresses `0x2000 + 8k` of the collaborator's control register (20_memory R31, D18). -/
def isCtrlAddr (addr : Addr) : Bool :=
  decide (0x2000 ≤ addr.toNat ∧ addr.toNat ≤ 0x3FFF ∧ addr.toNat % 8 = Config.ppuCtrlIndex)

/-- CORE's reaction to its own write, after the transfer (20_memory R31; 60_exceptions R204, R210). -/
def State.snoop (s : State) (addr : Addr) (v : Byte) : State :=
  { s with
    dmaPending := if addr = Config.dmaTriggerAddr then true else s.dmaPending
    dmaPage := if addr = Config.dmaTriggerAddr then v else s.dmaPage
    nmiEn := if isCtrlAddr addr then v.getLsbD 7 else s.nmiEn }

/-- `MemWrite(addr, 1, v)` (20_memory R31). -/
def State.memWrite (s : State) (addr : Addr) (v : Byte) : State := (s.busWrite addr v).snoop addr v

/-- `Read16(a)`, low byte first (20_memory R33). -/
def State.read16 (s : State) (addr : Addr) : Addr × State :=
  let lo := s.memRead addr
  let hi := lo.2.memRead (addr + 1)
  (word lo.1 hi.1, hi.2)

/-- The address `0x0100 | SP` of the stack cell SP names (10_state R12). -/
def stackAddr (sp : Byte) : Addr := word sp Config.stackPage

/-- `Push(v)`: write, then decrement modulo 256 (20_memory R35). -/
def State.push (s : State) (v : Byte) : State :=
  let t := s.memWrite (stackAddr s.sp) v
  { t with sp := s.sp - 1 }

/-- `Pull()`: increment modulo 256, then read (20_memory R36). -/
def State.pull (s : State) : Byte × State :=
  { s with sp := s.sp + 1 }.memRead (stackAddr (s.sp + 1))

/-- Push a 16-bit value, high byte first (20_memory R32). -/
def State.pushWord (s : State) (w : Addr) : State := (s.push (hi8 w)).push (lo8 w)

/-- Pull a 16-bit value, low byte first. -/
def State.pullWord (s : State) : Addr × State :=
  let lo := s.pull
  let hi := lo.2.pull
  (word lo.1 hi.1, hi.2)

/-- `OamWrite(i, v)`: not a bus write and not snooped (20_memory R31, R38). -/
def State.oamWrite (s : State) (i v : Byte) : State :=
  { s with oam := s.oam.write i.toNat v, bus := .oamWrite i v :: s.bus }

/-- `PC <- (PC + len) & 0xFFFF` (10_state R11). -/
def State.advance (s : State) (len : Nat) : State := { s with pc := s.pc + BitVec.ofNat 16 len }

/-- Record the cycle count a step returns (00_scope R5). -/
def State.charge (s : State) (n : Nat) : State := { s with cycles := n }

/-- The two ways control goes to a handler (60_exceptions R202). -/
inductive Entry where
  | nmi
  | brk
  deriving DecidableEq, Repr

/-- The status byte an entry pushes: NMI pushes P as it is (R205), BRK sets B in the pushed byte (R190). -/
def Entry.image : Entry → Status → Byte
  | .nmi, p => p.imageAsIs
  | .brk, p => p.imageSet

/-- The vector an entry loads PC from (R205, R190). -/
def Entry.vector : Entry → Addr
  | .nmi => Config.nmiVector
  | .brk => Config.brkVector

/-- What an entry changes beside SP, PC and the stack: NMI consumes the edge and enters `SERVICING_NMI` and leaves every flag
(R205); BRK sets I after the push (R190). -/
def Entry.mark : Entry → State → State
  | .nmi, s => { s with nmiPending := false, svcNmi := true }
  | .brk, s => { s with p := { s.p with i := true } }

/-- Take an exception: push the return address high byte first, push the status image, then load PC from the vector
(60_exceptions R205, 49_brk_nop R190). -/
def State.enter (s : State) (e : Entry) (ret : Addr) : State :=
  let pushed := e.mark ((s.pushWord ret).push (e.image s.p))
  let target := pushed.read16 e.vector
  { target.2 with pc := target.1 }

/-- Return from an interrupt: pull P, then PC with no increment, and leave `SERVICING_NMI` (45_jump_return R153). -/
def State.leave (s : State) : State :=
  let status := s.pull
  let target := { status.2 with p := Status.ofByte status.1 }.pullWord
  { target.2 with pc := target.1, svcNmi := false }

/-- `RaiseNmi()`, an event between steps: one edge sets the latch (60_exceptions R203). -/
def State.raiseNmi (s : State) : State := { s with nmiPending := true }

/-- `Reset()`, an event between steps, in any state (70_reset R240): every register and latch, then PC from the vector by
exactly two bus reads; memory, OAM and mapper stay. -/
def State.doReset (s : State) : State :=
  let cleared : State :=
    { s with
      a := Config.resetA
      x := Config.resetX
      y := Config.resetY
      sp := Config.resetSP
      p := Status.ofByte Config.resetP
      nmiPending := false
      nmiEn := false
      dmaPending := false
      dmaPage := 0x00
      svcNmi := false
      cycOdd := false
      fault := none
      cycles := 0
      bus := [] }
  let target := cleared.read16 Config.resetVector
  { target.2 with pc := target.1 }

end Sys2Proof.Machine
end

