-- ==== Sys2Proof/Machine/Operands.lean ====
section
/-! DEFINITION. Operand resolution for the addressing modes (40_addressing_modes R70 to R86) and the operand classes of R85. -/

namespace Sys2Proof.Machine

/-- The modes that yield an effective address, each with its operand. -/
inductive EaMode where
  | zp (b : Byte)
  | zpx (b : Byte)
  | zpy (b : Byte)
  | abs (w : Addr)
  | abx (w : Addr)
  | aby (w : Addr)
  | ind (w : Addr)
  | izx (b : Byte)
  | izy (b : Byte)
  deriving DecidableEq, Repr

/-- The operand of a read-class instruction: `b1` itself (IMMEDIATE), or the byte at an effective address (R85). -/
inductive Source where
  | imm (v : Byte)
  | ea (m : EaMode)
  deriving DecidableEq, Repr

/-- The addressing mode of an operand form. -/
def EaMode.mode : EaMode → Mode
  | .zp _ => .ZEROPAGE
  | .zpx _ => .ZEROPAGE_X
  | .zpy _ => .ZEROPAGE_Y
  | .abs _ => .ABSOLUTE
  | .abx _ => .ABSOLUTE_X
  | .aby _ => .ABSOLUTE_Y
  | .ind _ => .INDIRECT
  | .izx _ => .INDIRECT_X
  | .izy _ => .INDIRECT_Y

/-- The addressing mode of a source form. -/
def Source.mode : Source → Mode
  | .imm _ => .IMMEDIATE
  | .ea m => m.mode

/-- What `Resolve` yields (R70): the effective address, the "page crossed" flag, and the state after the mode's own reads. -/
structure Resolved where
  ea : Addr
  crossed : Bool
  state : State
  deriving DecidableEq, Repr

/-- "Page crossed" compares high bytes only (R84). -/
def pageCrossed (base ea : Addr) : Bool := hi8 ea != hi8 base

/-- An index added to a 16-bit base modulo 65536 (R78, R79, R82). -/
def indexed (base : Addr) (index : Byte) (s : State) : Resolved :=
  { ea := base + zext16 index, crossed := pageCrossed base (base + zext16 index), state := s }

/-- A pointer whose second byte is read from the same page (R80, R81, R82): only the low byte of the address is
incremented. -/
def State.readPointer (s : State) (ptr : Addr) : Addr × State :=
  let lo := s.memRead ptr
  let hi := lo.2.memRead (word (lo8 ptr + 1) (hi8 ptr))
  (word lo.1 hi.1, hi.2)

/-- `Resolve(mode, b1, b2, npc)` for the modes with an effective address (R74 to R82). -/
def resolve (m : EaMode) (s : State) : Resolved :=
  match m with
  | .zp b => { ea := zext16 b, crossed := false, state := s }
  | .zpx b => { ea := zext16 (b + s.x), crossed := false, state := s }
  | .zpy b => { ea := zext16 (b + s.y), crossed := false, state := s }
  | .abs w => { ea := w, crossed := false, state := s }
  | .abx w => indexed w s.x s
  | .aby w => indexed w s.y s
  | .ind w =>
    let ptr := s.readPointer w
    { ea := ptr.1, crossed := false, state := ptr.2 }
  | .izx b =>
    let ptr := s.readPointer (zext16 (b + s.x))
    { ea := ptr.1, crossed := false, state := ptr.2 }
  | .izy b =>
    let ptr := s.readPointer (zext16 b)
    indexed ptr.1 s.y ptr.2

/-- The operand byte of a read-class instruction, its `crossed`, and the state after every read (R85). -/
structure Fetched where
  value : Byte
  crossed : Bool
  state : State
  deriving DecidableEq, Repr

/-- `v <- b1` for IMMEDIATE, otherwise exactly one `MemRead(ea, 1)` after the mode's own reads (R85, R86). -/
def readSource (src : Source) (s : State) : Fetched :=
  match src with
  | .imm v => { value := v, crossed := false, state := s }
  | .ea m =>
    let r := resolve m s
    { value := r.state.answer r.ea, crossed := r.crossed, state := r.state.afterRead r.ea }

/-- The target of a RELATIVE operand, from the address after the branch (R83). -/
def branchTarget (npc : Addr) (off : Byte) : Addr := npc + sext16 off

/-- The page-crossing add-on of a cycle count (70_reset R250, R252). -/
def penalty (pen crossed : Bool) : Nat := if pen && crossed then 1 else 0

/-- A read-class instruction (41_load_alu R90): PC to `npc`, the operand, the instruction's own effect, the cycles. -/
def readClass (effect : Byte → State → State) (src : Source) (base : Nat) (pen : Bool) (s : State) :
    Host.Outcome State Fault Refusal :=
  let f := readSource src (s.advance (width src.mode))
  .next ((effect f.value f.state).charge (base + penalty pen f.crossed))

/-- A write-class instruction (43_store R130): exactly one write, no read of the target, never a penalty. -/
def writeClass (value : State → Byte) (m : EaMode) (base : Nat) (s : State) : Host.Outcome State Fault Refusal :=
  let r := resolve m (s.advance (width m.mode))
  .next ((r.state.memWrite r.ea (value s)).charge base)

/-- A read-modify-write instruction in memory (42_shift_incdec R110): one read, then one write of the final value. -/
def rmwClass (op : Byte → Status → Byte × Status) (m : EaMode) (base : Nat) (s : State) :
    Host.Outcome State Fault Refusal :=
  let r := resolve m (s.advance (width m.mode))
  let out := op (r.state.answer r.ea) s.p
  let t := (r.state.afterRead r.ea).memWrite r.ea out.1
  .next ({ t with p := out.2 }.charge base)

/-- The ACCUMULATOR form of a read-modify-write instruction (R110): no memory access. -/
def accClass (op : Byte → Status → Byte × Status) (base : Nat) (s : State) : Host.Outcome State Fault Refusal :=
  let out := op s.a s.p
  .next ({ s.advance 1 with a := out.1, p := out.2 }.charge base)

/-- An IMPLICIT instruction: its effect on the state whose PC is `npc`, and the cycles. -/
def implicitClass (effect : State → State) (base : Nat) (s : State) : Host.Outcome State Fault Refusal :=
  .next ((effect (s.advance 1)).charge base)

end Sys2Proof.Machine
end

