-- ==== Sys2Proof/Machine/Branch.lean ====
section
/-! DEFINITION. Conditional branches (44_branch R135 to R143). -/

namespace Sys2Proof.Machine

/-- The common shape of the branches (R135): PC to `npc`; if taken, PC to the target and 3 cycles, 4 when the target lies in
another page than `npc`; if not taken, 2 cycles. -/
def branchClass (taken : Bool) (off : Byte) (s : State) : Host.Outcome State Fault Refusal :=
  let t := s.advance 2
  let target := branchTarget t.pc off
  if taken then .next ({ t with pc := target }.charge (2 + 1 + penalty true (pageCrossed t.pc target)))
  else .next (t.charge 2)

/-- BCC RELATIVE (44_branch R136). -/
def execBccRel (b : Byte) (s : State) : Host.Outcome State Fault Refusal := branchClass (!s.p.c) b s

/-- BCS RELATIVE (44_branch R137). -/
def execBcsRel (b : Byte) (s : State) : Host.Outcome State Fault Refusal := branchClass s.p.c b s

/-- BEQ RELATIVE (44_branch R138). -/
def execBeqRel (b : Byte) (s : State) : Host.Outcome State Fault Refusal := branchClass s.p.z b s

/-- BNE RELATIVE (44_branch R139). -/
def execBneRel (b : Byte) (s : State) : Host.Outcome State Fault Refusal := branchClass (!s.p.z) b s

/-- BMI RELATIVE (44_branch R140). -/
def execBmiRel (b : Byte) (s : State) : Host.Outcome State Fault Refusal := branchClass s.p.n b s

/-- BPL RELATIVE (44_branch R141). -/
def execBplRel (b : Byte) (s : State) : Host.Outcome State Fault Refusal := branchClass (!s.p.n) b s

/-- BVC RELATIVE (44_branch R142). -/
def execBvcRel (b : Byte) (s : State) : Host.Outcome State Fault Refusal := branchClass (!s.p.v) b s

/-- BVS RELATIVE (44_branch R143). -/
def execBvsRel (b : Byte) (s : State) : Host.Outcome State Fault Refusal := branchClass s.p.v b s

end Sys2Proof.Machine
end

