-- ==== Sys2Proof/Machine/BrkNop.lean ====
section
/-! DEFINITION. BRK and NOP (49_brk_nop R190, R191). -/

namespace Sys2Proof.Machine

/-- BRK (49_brk_nop R190): the exception entry of `State.enter`, with `pc0 + 2` as the return address. -/
def execBrk (s : State) : Host.Outcome State Fault Refusal :=
  .next ((s.enter .brk (s.pc + 2)).charge Config.interruptCycles)

/-- NOP (49_brk_nop R191). -/
def execNop (s : State) : Host.Outcome State Fault Refusal := implicitClass id 2 s

end Sys2Proof.Machine
end

