-- ==== Sys2Proof/Machine/FlagOps.lean ====
section
/-! DEFINITION. Flag set and clear instructions (48_flags R180 to R187). -/

namespace Sys2Proof.Machine

/-- CLC (48_flags R181). -/
def execClc (s : State) : Host.Outcome State Fault Refusal :=
  implicitClass (fun t => { t with p := { t.p with c := false } }) 2 s

/-- CLD (48_flags R182). -/
def execCld (s : State) : Host.Outcome State Fault Refusal :=
  implicitClass (fun t => { t with p := { t.p with d := false } }) 2 s

/-- CLI (48_flags R183). -/
def execCli (s : State) : Host.Outcome State Fault Refusal :=
  implicitClass (fun t => { t with p := { t.p with i := false } }) 2 s

/-- CLV (48_flags R184). -/
def execClv (s : State) : Host.Outcome State Fault Refusal :=
  implicitClass (fun t => { t with p := { t.p with v := false } }) 2 s

/-- SEC (48_flags R185). -/
def execSec (s : State) : Host.Outcome State Fault Refusal :=
  implicitClass (fun t => { t with p := { t.p with c := true } }) 2 s

/-- SED (48_flags R186). -/
def execSed (s : State) : Host.Outcome State Fault Refusal :=
  implicitClass (fun t => { t with p := { t.p with d := true } }) 2 s

/-- SEI (48_flags R187). -/
def execSei (s : State) : Host.Outcome State Fault Refusal :=
  implicitClass (fun t => { t with p := { t.p with i := true } }) 2 s

end Sys2Proof.Machine
end

