-- ==== Sys2Proof/Machine/JumpReturn.lean ====
section
/-! DEFINITION. Jump, subroutine call and returns (45_jump_return R150 to R153). -/

namespace Sys2Proof.Machine

/-- PC to the resolved address (R150). -/
def jumpTo (m : EaMode) (base : Nat) (s : State) : Host.Outcome State Fault Refusal :=
  let r := resolve m (s.advance (width m.mode))
  .next ({ r.state with pc := r.ea }.charge base)

/-- Push the address of the instruction's last byte, `pc0 + 2`, then PC to the operand (R151). -/
def callTo (w : Addr) (s : State) : State := { s.pushWord (s.pc + 2) with pc := w }

/-- Pull the return address and add one (R152). -/
def returnFrom (s : State) : State :=
  let r := s.pullWord
  { r.2 with pc := r.1 + 1 }

/-- JMP ABSOLUTE (45_jump_return R150). -/
def execJmpAbs (w : Addr) (s : State) : Host.Outcome State Fault Refusal := jumpTo (.abs w) 3 s

/-- JMP INDIRECT (45_jump_return R150). -/
def execJmpInd (w : Addr) (s : State) : Host.Outcome State Fault Refusal := jumpTo (.ind w) 5 s

/-- JSR ABSOLUTE (45_jump_return R151). -/
def execJsrAbs (w : Addr) (s : State) : Host.Outcome State Fault Refusal := .next ((callTo w s).charge 6)

/-- RTS (45_jump_return R152). -/
def execRts (s : State) : Host.Outcome State Fault Refusal := implicitClass returnFrom 6 s

/-- RTI (45_jump_return R153). -/
def execRti (s : State) : Host.Outcome State Fault Refusal := implicitClass State.leave 6 s

end Sys2Proof.Machine
end

