-- ==== Sys2Proof/Machine/LoadAlu.lean ====
section
/-! DEFINITION. Load, arithmetic, logic, compare and bit-test instructions (41_load_alu R90 to
R102). The base cycles and the penalty mark of each opcode are those of 30_encoding R59. -/

namespace Sys2Proof.Machine

/-- The effect of LDA with operand `v`: `A <- v ; SetZN(A)` (R91). -/
def ldaEffect (v : Byte) (s : State) : State := { s with a := v, p := s.p.setZN v }

/-- The effect of LDX with operand `v`: `X <- v ; SetZN(X)` (R92). -/
def ldxEffect (v : Byte) (s : State) : State := { s with x := v, p := s.p.setZN v }

/-- The effect of LDY with operand `v`: `Y <- v ; SetZN(Y)` (R93). -/
def ldyEffect (v : Byte) (s : State) : State := { s with y := v, p := s.p.setZN v }

/-- The effect of ADC with operand `v`: binary addition with carry (R94). -/
def adcEffect (v : Byte) (s : State) : State := { s with a := adcResult s.a v s.p.c, p := s.p.afterAdc s.a v }

/-- The effect of SBC with operand `v`: addition of the one's complement of `v` (R95). -/
def sbcEffect (v : Byte) (s : State) : State := adcEffect (v ^^^ 0xFF) s

/-- The effect of AND with operand `v`: `A <- A & v ; SetZN(A)` (R96). -/
def andEffect (v : Byte) (s : State) : State := { s with a := s.a &&& v, p := s.p.setZN (s.a &&& v) }

/-- The effect of ORA with operand `v`: `A <- A | v ; SetZN(A)` (R97). -/
def oraEffect (v : Byte) (s : State) : State := { s with a := s.a ||| v, p := s.p.setZN (s.a ||| v) }

/-- The effect of EOR with operand `v`: `A <- A ^ v ; SetZN(A)` (R98). -/
def eorEffect (v : Byte) (s : State) : State := { s with a := s.a ^^^ v, p := s.p.setZN (s.a ^^^ v) }

/-- The effect of CMP with operand `v`: C, Z, N from `A - v`; no register written (R99). -/
def cmpEffect (v : Byte) (s : State) : State := { s with p := s.p.afterCompare s.a v }

/-- The effect of CPX with operand `v`: C, Z, N from `X - v`; no register written (R100). -/
def cpxEffect (v : Byte) (s : State) : State := { s with p := s.p.afterCompare s.x v }

/-- The effect of CPY with operand `v`: C, Z, N from `Y - v`; no register written (R101). -/
def cpyEffect (v : Byte) (s : State) : State := { s with p := s.p.afterCompare s.y v }

/-- The effect of BIT with operand `v`: Z from `A & v`, N and V from `v`; no register written (R102). -/
def bitEffect (v : Byte) (s : State) : State := { s with p := s.p.afterBit s.a v }

/-- LDA IMMEDIATE (41_load_alu R91). -/
def execLdaImm (v : Byte) (s : State) : Host.Outcome State Fault Refusal := readClass ldaEffect (.imm v) 2 false s

/-- LDA ZEROPAGE (41_load_alu R91). -/
def execLdaZp (b : Byte) (s : State) : Host.Outcome State Fault Refusal := readClass ldaEffect (.ea (.zp b)) 3 false s

/-- LDA ZEROPAGE_X (41_load_alu R91). -/
def execLdaZpx (b : Byte) (s : State) : Host.Outcome State Fault Refusal :=
  readClass ldaEffect (.ea (.zpx b)) 4 false s

/-- LDA ABSOLUTE (41_load_alu R91). -/
def execLdaAbs (w : Addr) (s : State) : Host.Outcome State Fault Refusal :=
  readClass ldaEffect (.ea (.abs w)) 4 false s

/-- LDA ABSOLUTE_X (41_load_alu R91). -/
def execLdaAbx (w : Addr) (s : State) : Host.Outcome State Fault Refusal :=
  readClass ldaEffect (.ea (.abx w)) 4 true s

/-- LDA ABSOLUTE_Y (41_load_alu R91). -/
def execLdaAby (w : Addr) (s : State) : Host.Outcome State Fault Refusal :=
  readClass ldaEffect (.ea (.aby w)) 4 true s

/-- LDA INDIRECT_X (41_load_alu R91). -/
def execLdaIzx (b : Byte) (s : State) : Host.Outcome State Fault Refusal :=
  readClass ldaEffect (.ea (.izx b)) 6 false s

/-- LDA INDIRECT_Y (41_load_alu R91). -/
def execLdaIzy (b : Byte) (s : State) : Host.Outcome State Fault Refusal :=
  readClass ldaEffect (.ea (.izy b)) 5 true s

/-- LDX IMMEDIATE (41_load_alu R92). -/
def execLdxImm (v : Byte) (s : State) : Host.Outcome State Fault Refusal := readClass ldxEffect (.imm v) 2 false s

/-- LDX ZEROPAGE (41_load_alu R92). -/
def execLdxZp (b : Byte) (s : State) : Host.Outcome State Fault Refusal := readClass ldxEffect (.ea (.zp b)) 3 false s

/-- LDX ZEROPAGE_Y (41_load_alu R92). -/
def execLdxZpy (b : Byte) (s : State) : Host.Outcome State Fault Refusal :=
  readClass ldxEffect (.ea (.zpy b)) 4 false s

/-- LDX ABSOLUTE (41_load_alu R92). -/
def execLdxAbs (w : Addr) (s : State) : Host.Outcome State Fault Refusal :=
  readClass ldxEffect (.ea (.abs w)) 4 false s

/-- LDX ABSOLUTE_Y (41_load_alu R92). -/
def execLdxAby (w : Addr) (s : State) : Host.Outcome State Fault Refusal :=
  readClass ldxEffect (.ea (.aby w)) 4 true s

/-- LDY IMMEDIATE (41_load_alu R93). -/
def execLdyImm (v : Byte) (s : State) : Host.Outcome State Fault Refusal := readClass ldyEffect (.imm v) 2 false s

/-- LDY ZEROPAGE (41_load_alu R93). -/
def execLdyZp (b : Byte) (s : State) : Host.Outcome State Fault Refusal := readClass ldyEffect (.ea (.zp b)) 3 false s

/-- LDY ZEROPAGE_X (41_load_alu R93). -/
def execLdyZpx (b : Byte) (s : State) : Host.Outcome State Fault Refusal :=
  readClass ldyEffect (.ea (.zpx b)) 4 false s

/-- LDY ABSOLUTE (41_load_alu R93). -/
def execLdyAbs (w : Addr) (s : State) : Host.Outcome State Fault Refusal :=
  readClass ldyEffect (.ea (.abs w)) 4 false s

/-- LDY ABSOLUTE_X (41_load_alu R93). -/
def execLdyAbx (w : Addr) (s : State) : Host.Outcome State Fault Refusal :=
  readClass ldyEffect (.ea (.abx w)) 4 true s

/-- ADC IMMEDIATE (41_load_alu R94). -/
def execAdcImm (v : Byte) (s : State) : Host.Outcome State Fault Refusal := readClass adcEffect (.imm v) 2 false s

/-- ADC ZEROPAGE (41_load_alu R94). -/
def execAdcZp (b : Byte) (s : State) : Host.Outcome State Fault Refusal := readClass adcEffect (.ea (.zp b)) 3 false s

/-- ADC ZEROPAGE_X (41_load_alu R94). -/
def execAdcZpx (b : Byte) (s : State) : Host.Outcome State Fault Refusal :=
  readClass adcEffect (.ea (.zpx b)) 4 false s

/-- ADC ABSOLUTE (41_load_alu R94). -/
def execAdcAbs (w : Addr) (s : State) : Host.Outcome State Fault Refusal :=
  readClass adcEffect (.ea (.abs w)) 4 false s

/-- ADC ABSOLUTE_X (41_load_alu R94). -/
def execAdcAbx (w : Addr) (s : State) : Host.Outcome State Fault Refusal :=
  readClass adcEffect (.ea (.abx w)) 4 true s

/-- ADC ABSOLUTE_Y (41_load_alu R94). -/
def execAdcAby (w : Addr) (s : State) : Host.Outcome State Fault Refusal :=
  readClass adcEffect (.ea (.aby w)) 4 true s

/-- ADC INDIRECT_X (41_load_alu R94). -/
def execAdcIzx (b : Byte) (s : State) : Host.Outcome State Fault Refusal :=
  readClass adcEffect (.ea (.izx b)) 6 false s

/-- ADC INDIRECT_Y (41_load_alu R94). -/
def execAdcIzy (b : Byte) (s : State) : Host.Outcome State Fault Refusal :=
  readClass adcEffect (.ea (.izy b)) 5 true s

/-- SBC IMMEDIATE (41_load_alu R95). -/
def execSbcImm (v : Byte) (s : State) : Host.Outcome State Fault Refusal := readClass sbcEffect (.imm v) 2 false s

/-- SBC ZEROPAGE (41_load_alu R95). -/
def execSbcZp (b : Byte) (s : State) : Host.Outcome State Fault Refusal := readClass sbcEffect (.ea (.zp b)) 3 false s

/-- SBC ZEROPAGE_X (41_load_alu R95). -/
def execSbcZpx (b : Byte) (s : State) : Host.Outcome State Fault Refusal :=
  readClass sbcEffect (.ea (.zpx b)) 4 false s

/-- SBC ABSOLUTE (41_load_alu R95). -/
def execSbcAbs (w : Addr) (s : State) : Host.Outcome State Fault Refusal :=
  readClass sbcEffect (.ea (.abs w)) 4 false s

/-- SBC ABSOLUTE_X (41_load_alu R95). -/
def execSbcAbx (w : Addr) (s : State) : Host.Outcome State Fault Refusal :=
  readClass sbcEffect (.ea (.abx w)) 4 true s

/-- SBC ABSOLUTE_Y (41_load_alu R95). -/
def execSbcAby (w : Addr) (s : State) : Host.Outcome State Fault Refusal :=
  readClass sbcEffect (.ea (.aby w)) 4 true s

/-- SBC INDIRECT_X (41_load_alu R95). -/
def execSbcIzx (b : Byte) (s : State) : Host.Outcome State Fault Refusal :=
  readClass sbcEffect (.ea (.izx b)) 6 false s

/-- SBC INDIRECT_Y (41_load_alu R95). -/
def execSbcIzy (b : Byte) (s : State) : Host.Outcome State Fault Refusal :=
  readClass sbcEffect (.ea (.izy b)) 5 true s

/-- AND IMMEDIATE (41_load_alu R96). -/
def execAndImm (v : Byte) (s : State) : Host.Outcome State Fault Refusal := readClass andEffect (.imm v) 2 false s

/-- AND ZEROPAGE (41_load_alu R96). -/
def execAndZp (b : Byte) (s : State) : Host.Outcome State Fault Refusal := readClass andEffect (.ea (.zp b)) 3 false s

/-- AND ZEROPAGE_X (41_load_alu R96). -/
def execAndZpx (b : Byte) (s : State) : Host.Outcome State Fault Refusal :=
  readClass andEffect (.ea (.zpx b)) 4 false s

/-- AND ABSOLUTE (41_load_alu R96). -/
def execAndAbs (w : Addr) (s : State) : Host.Outcome State Fault Refusal :=
  readClass andEffect (.ea (.abs w)) 4 false s

/-- AND ABSOLUTE_X (41_load_alu R96). -/
def execAndAbx (w : Addr) (s : State) : Host.Outcome State Fault Refusal :=
  readClass andEffect (.ea (.abx w)) 4 true s

/-- AND ABSOLUTE_Y (41_load_alu R96). -/
def execAndAby (w : Addr) (s : State) : Host.Outcome State Fault Refusal :=
  readClass andEffect (.ea (.aby w)) 4 true s

/-- AND INDIRECT_X (41_load_alu R96). -/
def execAndIzx (b : Byte) (s : State) : Host.Outcome State Fault Refusal :=
  readClass andEffect (.ea (.izx b)) 6 false s

/-- AND INDIRECT_Y (41_load_alu R96). -/
def execAndIzy (b : Byte) (s : State) : Host.Outcome State Fault Refusal :=
  readClass andEffect (.ea (.izy b)) 5 true s

/-- ORA IMMEDIATE (41_load_alu R97). -/
def execOraImm (v : Byte) (s : State) : Host.Outcome State Fault Refusal := readClass oraEffect (.imm v) 2 false s

/-- ORA ZEROPAGE (41_load_alu R97). -/
def execOraZp (b : Byte) (s : State) : Host.Outcome State Fault Refusal := readClass oraEffect (.ea (.zp b)) 3 false s

/-- ORA ZEROPAGE_X (41_load_alu R97). -/
def execOraZpx (b : Byte) (s : State) : Host.Outcome State Fault Refusal :=
  readClass oraEffect (.ea (.zpx b)) 4 false s

/-- ORA ABSOLUTE (41_load_alu R97). -/
def execOraAbs (w : Addr) (s : State) : Host.Outcome State Fault Refusal :=
  readClass oraEffect (.ea (.abs w)) 4 false s

/-- ORA ABSOLUTE_X (41_load_alu R97). -/
def execOraAbx (w : Addr) (s : State) : Host.Outcome State Fault Refusal :=
  readClass oraEffect (.ea (.abx w)) 4 true s

/-- ORA ABSOLUTE_Y (41_load_alu R97). -/
def execOraAby (w : Addr) (s : State) : Host.Outcome State Fault Refusal :=
  readClass oraEffect (.ea (.aby w)) 4 true s

/-- ORA INDIRECT_X (41_load_alu R97). -/
def execOraIzx (b : Byte) (s : State) : Host.Outcome State Fault Refusal :=
  readClass oraEffect (.ea (.izx b)) 6 false s

/-- ORA INDIRECT_Y (41_load_alu R97). -/
def execOraIzy (b : Byte) (s : State) : Host.Outcome State Fault Refusal :=
  readClass oraEffect (.ea (.izy b)) 5 true s

/-- EOR IMMEDIATE (41_load_alu R98). -/
def execEorImm (v : Byte) (s : State) : Host.Outcome State Fault Refusal := readClass eorEffect (.imm v) 2 false s

/-- EOR ZEROPAGE (41_load_alu R98). -/
def execEorZp (b : Byte) (s : State) : Host.Outcome State Fault Refusal := readClass eorEffect (.ea (.zp b)) 3 false s

/-- EOR ZEROPAGE_X (41_load_alu R98). -/
def execEorZpx (b : Byte) (s : State) : Host.Outcome State Fault Refusal :=
  readClass eorEffect (.ea (.zpx b)) 4 false s

/-- EOR ABSOLUTE (41_load_alu R98). -/
def execEorAbs (w : Addr) (s : State) : Host.Outcome State Fault Refusal :=
  readClass eorEffect (.ea (.abs w)) 4 false s

/-- EOR ABSOLUTE_X (41_load_alu R98). -/
def execEorAbx (w : Addr) (s : State) : Host.Outcome State Fault Refusal :=
  readClass eorEffect (.ea (.abx w)) 4 true s

/-- EOR ABSOLUTE_Y (41_load_alu R98). -/
def execEorAby (w : Addr) (s : State) : Host.Outcome State Fault Refusal :=
  readClass eorEffect (.ea (.aby w)) 4 true s

/-- EOR INDIRECT_X (41_load_alu R98). -/
def execEorIzx (b : Byte) (s : State) : Host.Outcome State Fault Refusal :=
  readClass eorEffect (.ea (.izx b)) 6 false s

/-- EOR INDIRECT_Y (41_load_alu R98). -/
def execEorIzy (b : Byte) (s : State) : Host.Outcome State Fault Refusal :=
  readClass eorEffect (.ea (.izy b)) 5 true s

/-- CMP IMMEDIATE (41_load_alu R99). -/
def execCmpImm (v : Byte) (s : State) : Host.Outcome State Fault Refusal := readClass cmpEffect (.imm v) 2 false s

/-- CMP ZEROPAGE (41_load_alu R99). -/
def execCmpZp (b : Byte) (s : State) : Host.Outcome State Fault Refusal := readClass cmpEffect (.ea (.zp b)) 3 false s

/-- CMP ZEROPAGE_X (41_load_alu R99). -/
def execCmpZpx (b : Byte) (s : State) : Host.Outcome State Fault Refusal :=
  readClass cmpEffect (.ea (.zpx b)) 4 false s

/-- CMP ABSOLUTE (41_load_alu R99). -/
def execCmpAbs (w : Addr) (s : State) : Host.Outcome State Fault Refusal :=
  readClass cmpEffect (.ea (.abs w)) 4 false s

/-- CMP ABSOLUTE_X (41_load_alu R99). -/
def execCmpAbx (w : Addr) (s : State) : Host.Outcome State Fault Refusal :=
  readClass cmpEffect (.ea (.abx w)) 4 true s

/-- CMP ABSOLUTE_Y (41_load_alu R99). -/
def execCmpAby (w : Addr) (s : State) : Host.Outcome State Fault Refusal :=
  readClass cmpEffect (.ea (.aby w)) 4 true s

/-- CMP INDIRECT_X (41_load_alu R99). -/
def execCmpIzx (b : Byte) (s : State) : Host.Outcome State Fault Refusal :=
  readClass cmpEffect (.ea (.izx b)) 6 false s

/-- CMP INDIRECT_Y (41_load_alu R99). -/
def execCmpIzy (b : Byte) (s : State) : Host.Outcome State Fault Refusal :=
  readClass cmpEffect (.ea (.izy b)) 5 true s

/-- CPX IMMEDIATE (41_load_alu R100). -/
def execCpxImm (v : Byte) (s : State) : Host.Outcome State Fault Refusal := readClass cpxEffect (.imm v) 2 false s

/-- CPX ZEROPAGE (41_load_alu R100). -/
def execCpxZp (b : Byte) (s : State) : Host.Outcome State Fault Refusal := readClass cpxEffect (.ea (.zp b)) 3 false s

/-- CPX ABSOLUTE (41_load_alu R100). -/
def execCpxAbs (w : Addr) (s : State) : Host.Outcome State Fault Refusal :=
  readClass cpxEffect (.ea (.abs w)) 4 false s

/-- CPY IMMEDIATE (41_load_alu R101). -/
def execCpyImm (v : Byte) (s : State) : Host.Outcome State Fault Refusal := readClass cpyEffect (.imm v) 2 false s

/-- CPY ZEROPAGE (41_load_alu R101). -/
def execCpyZp (b : Byte) (s : State) : Host.Outcome State Fault Refusal := readClass cpyEffect (.ea (.zp b)) 3 false s

/-- CPY ABSOLUTE (41_load_alu R101). -/
def execCpyAbs (w : Addr) (s : State) : Host.Outcome State Fault Refusal :=
  readClass cpyEffect (.ea (.abs w)) 4 false s

/-- BIT ZEROPAGE (41_load_alu R102). -/
def execBitZp (b : Byte) (s : State) : Host.Outcome State Fault Refusal := readClass bitEffect (.ea (.zp b)) 3 false s

/-- BIT ABSOLUTE (41_load_alu R102). -/
def execBitAbs (w : Addr) (s : State) : Host.Outcome State Fault Refusal :=
  readClass bitEffect (.ea (.abs w)) 4 false s

end Sys2Proof.Machine
end

