-- ==== Sys2Proof/Machine/ShiftIncDec.lean ====
section
/-! DEFINITION. Shift, rotate, increment and decrement instructions (42_shift_incdec R110 to R120). -/

namespace Sys2Proof.Machine

/-- ASL ACCUMULATOR (42_shift_incdec R111). -/
def execAslAcc (s : State) : Host.Outcome State Fault Refusal := accClass aslOp 2 s

/-- ASL ZEROPAGE (42_shift_incdec R111). -/
def execAslZp (b : Byte) (s : State) : Host.Outcome State Fault Refusal := rmwClass aslOp (.zp b) 5 s

/-- ASL ZEROPAGE_X (42_shift_incdec R111). -/
def execAslZpx (b : Byte) (s : State) : Host.Outcome State Fault Refusal := rmwClass aslOp (.zpx b) 6 s

/-- ASL ABSOLUTE (42_shift_incdec R111). -/
def execAslAbs (w : Addr) (s : State) : Host.Outcome State Fault Refusal := rmwClass aslOp (.abs w) 6 s

/-- ASL ABSOLUTE_X (42_shift_incdec R111). -/
def execAslAbx (w : Addr) (s : State) : Host.Outcome State Fault Refusal := rmwClass aslOp (.abx w) 7 s

/-- LSR ACCUMULATOR (42_shift_incdec R112). -/
def execLsrAcc (s : State) : Host.Outcome State Fault Refusal := accClass lsrOp 2 s

/-- LSR ZEROPAGE (42_shift_incdec R112). -/
def execLsrZp (b : Byte) (s : State) : Host.Outcome State Fault Refusal := rmwClass lsrOp (.zp b) 5 s

/-- LSR ZEROPAGE_X (42_shift_incdec R112). -/
def execLsrZpx (b : Byte) (s : State) : Host.Outcome State Fault Refusal := rmwClass lsrOp (.zpx b) 6 s

/-- LSR ABSOLUTE (42_shift_incdec R112). -/
def execLsrAbs (w : Addr) (s : State) : Host.Outcome State Fault Refusal := rmwClass lsrOp (.abs w) 6 s

/-- LSR ABSOLUTE_X (42_shift_incdec R112). -/
def execLsrAbx (w : Addr) (s : State) : Host.Outcome State Fault Refusal := rmwClass lsrOp (.abx w) 7 s

/-- ROL ACCUMULATOR (42_shift_incdec R113). -/
def execRolAcc (s : State) : Host.Outcome State Fault Refusal := accClass rolOp 2 s

/-- ROL ZEROPAGE (42_shift_incdec R113). -/
def execRolZp (b : Byte) (s : State) : Host.Outcome State Fault Refusal := rmwClass rolOp (.zp b) 5 s

/-- ROL ZEROPAGE_X (42_shift_incdec R113). -/
def execRolZpx (b : Byte) (s : State) : Host.Outcome State Fault Refusal := rmwClass rolOp (.zpx b) 6 s

/-- ROL ABSOLUTE (42_shift_incdec R113). -/
def execRolAbs (w : Addr) (s : State) : Host.Outcome State Fault Refusal := rmwClass rolOp (.abs w) 6 s

/-- ROL ABSOLUTE_X (42_shift_incdec R113). -/
def execRolAbx (w : Addr) (s : State) : Host.Outcome State Fault Refusal := rmwClass rolOp (.abx w) 7 s

/-- ROR ACCUMULATOR (42_shift_incdec R114). -/
def execRorAcc (s : State) : Host.Outcome State Fault Refusal := accClass rorOp 2 s

/-- ROR ZEROPAGE (42_shift_incdec R114). -/
def execRorZp (b : Byte) (s : State) : Host.Outcome State Fault Refusal := rmwClass rorOp (.zp b) 5 s

/-- ROR ZEROPAGE_X (42_shift_incdec R114). -/
def execRorZpx (b : Byte) (s : State) : Host.Outcome State Fault Refusal := rmwClass rorOp (.zpx b) 6 s

/-- ROR ABSOLUTE (42_shift_incdec R114). -/
def execRorAbs (w : Addr) (s : State) : Host.Outcome State Fault Refusal := rmwClass rorOp (.abs w) 6 s

/-- ROR ABSOLUTE_X (42_shift_incdec R114). -/
def execRorAbx (w : Addr) (s : State) : Host.Outcome State Fault Refusal := rmwClass rorOp (.abx w) 7 s

/-- INC ZEROPAGE (42_shift_incdec R115). -/
def execIncZp (b : Byte) (s : State) : Host.Outcome State Fault Refusal := rmwClass incOp (.zp b) 5 s

/-- INC ZEROPAGE_X (42_shift_incdec R115). -/
def execIncZpx (b : Byte) (s : State) : Host.Outcome State Fault Refusal := rmwClass incOp (.zpx b) 6 s

/-- INC ABSOLUTE (42_shift_incdec R115). -/
def execIncAbs (w : Addr) (s : State) : Host.Outcome State Fault Refusal := rmwClass incOp (.abs w) 6 s

/-- INC ABSOLUTE_X (42_shift_incdec R115). -/
def execIncAbx (w : Addr) (s : State) : Host.Outcome State Fault Refusal := rmwClass incOp (.abx w) 7 s

/-- DEC ZEROPAGE (42_shift_incdec R116). -/
def execDecZp (b : Byte) (s : State) : Host.Outcome State Fault Refusal := rmwClass decOp (.zp b) 5 s

/-- DEC ZEROPAGE_X (42_shift_incdec R116). -/
def execDecZpx (b : Byte) (s : State) : Host.Outcome State Fault Refusal := rmwClass decOp (.zpx b) 6 s

/-- DEC ABSOLUTE (42_shift_incdec R116). -/
def execDecAbs (w : Addr) (s : State) : Host.Outcome State Fault Refusal := rmwClass decOp (.abs w) 6 s

/-- DEC ABSOLUTE_X (42_shift_incdec R116). -/
def execDecAbx (w : Addr) (s : State) : Host.Outcome State Fault Refusal := rmwClass decOp (.abx w) 7 s

/-- INX (42_shift_incdec R117). -/
def execInx (s : State) : Host.Outcome State Fault Refusal :=
  implicitClass (fun t => { t with x := t.x + 1, p := t.p.setZN (t.x + 1) }) 2 s

/-- INY (42_shift_incdec R118). -/
def execIny (s : State) : Host.Outcome State Fault Refusal :=
  implicitClass (fun t => { t with y := t.y + 1, p := t.p.setZN (t.y + 1) }) 2 s

/-- DEX (42_shift_incdec R119). -/
def execDex (s : State) : Host.Outcome State Fault Refusal :=
  implicitClass (fun t => { t with x := t.x - 1, p := t.p.setZN (t.x - 1) }) 2 s

/-- DEY (42_shift_incdec R120). -/
def execDey (s : State) : Host.Outcome State Fault Refusal :=
  implicitClass (fun t => { t with y := t.y - 1, p := t.p.setZN (t.y - 1) }) 2 s

end Sys2Proof.Machine
end

