-- ==== Sys2Proof/Machine/Stack.lean ====
section
/-! DEFINITION. Stack instructions (46_stack R160 to R163). -/

namespace Sys2Proof.Machine

/-- `A <- Pull() ; SetZN(A)` (R162). -/
def pullA (s : State) : State :=
  let r := s.pull
  { r.2 with a := r.1, p := s.p.setZN r.1 }

/-- `PLoad(Pull())` (R163). -/
def pullP (s : State) : State :=
  let r := s.pull
  { r.2 with p := Status.ofByte r.1 }

/-- PHA (46_stack R160). -/
def execPha (s : State) : Host.Outcome State Fault Refusal := implicitClass (fun t => t.push t.a) 3 s

/-- PHP (46_stack R161). -/
def execPhp (s : State) : Host.Outcome State Fault Refusal := implicitClass (fun t => t.push t.p.imageSet) 3 s

/-- PLA (46_stack R162). -/
def execPla (s : State) : Host.Outcome State Fault Refusal := implicitClass pullA 4 s

/-- PLP (46_stack R163). -/
def execPlp (s : State) : Host.Outcome State Fault Refusal := implicitClass pullP 4 s

end Sys2Proof.Machine
end

