-- ==== Sys2Proof/Machine/Store.lean ====
section
/-! DEFINITION. Store instructions (43_store R130 to R133). -/

namespace Sys2Proof.Machine

/-- STA ZEROPAGE (43_store R131). -/
def execStaZp (b : Byte) (s : State) : Host.Outcome State Fault Refusal := writeClass State.a (.zp b) 3 s

/-- STA ZEROPAGE_X (43_store R131). -/
def execStaZpx (b : Byte) (s : State) : Host.Outcome State Fault Refusal := writeClass State.a (.zpx b) 4 s

/-- STA ABSOLUTE (43_store R131). -/
def execStaAbs (w : Addr) (s : State) : Host.Outcome State Fault Refusal := writeClass State.a (.abs w) 4 s

/-- STA ABSOLUTE_X (43_store R131). -/
def execStaAbx (w : Addr) (s : State) : Host.Outcome State Fault Refusal := writeClass State.a (.abx w) 5 s

/-- STA ABSOLUTE_Y (43_store R131). -/
def execStaAby (w : Addr) (s : State) : Host.Outcome State Fault Refusal := writeClass State.a (.aby w) 5 s

/-- STA INDIRECT_X (43_store R131). -/
def execStaIzx (b : Byte) (s : State) : Host.Outcome State Fault Refusal := writeClass State.a (.izx b) 6 s

/-- STA INDIRECT_Y (43_store R131). -/
def execStaIzy (b : Byte) (s : State) : Host.Outcome State Fault Refusal := writeClass State.a (.izy b) 6 s

/-- STX ZEROPAGE (43_store R132). -/
def execStxZp (b : Byte) (s : State) : Host.Outcome State Fault Refusal := writeClass State.x (.zp b) 3 s

/-- STX ZEROPAGE_Y (43_store R132). -/
def execStxZpy (b : Byte) (s : State) : Host.Outcome State Fault Refusal := writeClass State.x (.zpy b) 4 s

/-- STX ABSOLUTE (43_store R132). -/
def execStxAbs (w : Addr) (s : State) : Host.Outcome State Fault Refusal := writeClass State.x (.abs w) 4 s

/-- STY ZEROPAGE (43_store R133). -/
def execStyZp (b : Byte) (s : State) : Host.Outcome State Fault Refusal := writeClass State.y (.zp b) 3 s

/-- STY ZEROPAGE_X (43_store R133). -/
def execStyZpx (b : Byte) (s : State) : Host.Outcome State Fault Refusal := writeClass State.y (.zpx b) 4 s

/-- STY ABSOLUTE (43_store R133). -/
def execStyAbs (w : Addr) (s : State) : Host.Outcome State Fault Refusal := writeClass State.y (.abs w) 4 s

end Sys2Proof.Machine
end

