-- ==== Sys2Proof/Machine/Transfer.lean ====
section
/-! DEFINITION. Register transfers (47_transfer R170 to R176). -/

namespace Sys2Proof.Machine

/-- TAX (47_transfer R171). -/
def execTax (s : State) : Host.Outcome State Fault Refusal :=
  implicitClass (fun t => { t with x := t.a, p := t.p.setZN t.a }) 2 s

/-- TAY (47_transfer R172). -/
def execTay (s : State) : Host.Outcome State Fault Refusal :=
  implicitClass (fun t => { t with y := t.a, p := t.p.setZN t.a }) 2 s

/-- TXA (47_transfer R173). -/
def execTxa (s : State) : Host.Outcome State Fault Refusal :=
  implicitClass (fun t => { t with a := t.x, p := t.p.setZN t.x }) 2 s

/-- TYA (47_transfer R174). -/
def execTya (s : State) : Host.Outcome State Fault Refusal :=
  implicitClass (fun t => { t with a := t.y, p := t.p.setZN t.y }) 2 s

/-- TSX (47_transfer R175). -/
def execTsx (s : State) : Host.Outcome State Fault Refusal :=
  implicitClass (fun t => { t with x := t.sp, p := t.p.setZN t.sp }) 2 s

/-- TXS (47_transfer R176). -/
def execTxs (s : State) : Host.Outcome State Fault Refusal := implicitClass (fun t => { t with sp := t.x }) 2 s

end Sys2Proof.Machine
end

