-- ==== Sys2Proof/Machine/Sequencer.lean ====
section
/-! DEFINITION. The step sequencer (60_exceptions R200 to R226): fetch and decode, NMI service, OAM DMA service, the
arbitration between them, the halted state, the cycle-cost function (70_reset R250), and the events of the interface (00_scope
R5). -/

namespace Sys2Proof.Machine

/-- The numeric fault code (60_exceptions R220). -/
def Fault.code : Fault → Nat
  | .unsupportedMode _ _ => 1
  | .incompleteInstruction _ _ => 2
  | .outOfRangeAddress _ _ => 3
  | .illegalOpcode _ _ => 4

/-- The address of the fault record (10_state R21). -/
def Fault.addr : Fault → Addr
  | .unsupportedMode a _ | .incompleteInstruction a _ | .outOfRangeAddress a _ | .illegalOpcode a _ => a

/-- The opcode byte of the fault record (10_state R21). -/
def Fault.opcode : Fault → Byte
  | .unsupportedMode _ o | .incompleteInstruction _ o | .outOfRangeAddress _ o | .illegalOpcode _ o => o

/-- `Cycles(opcode, crossed, taken, bcross)` for a row of `Dispatch` (70_reset R250). -/
def cyclesOf (r : Row) (crossed taken bcross : Bool) : Nat :=
  if r.mode = .RELATIVE then r.base + (if taken then 1 else 0) + (if taken && bcross then 1 else 0)
  else r.base + (if r.pen && crossed then 1 else 0)

/-- What fetching answers: an instruction and the state after its fetch reads, or a fault and the state it is raised in. -/
inductive FetchResult where
  | instr (i : Instr) (s : State)
  | stop (f : Fault) (s : State)
  deriving DecidableEq, Repr

/-- Fetch the operand bytes a row's width asks for, in ascending order; each must be available (30_encoding R56, R57). -/
def fetchOperands (k : Params) (r : Row) (opcode : Byte) (s : State) : FetchResult :=
  let incomplete := FetchResult.stop (.incompleteInstruction s.pc opcode)
  match width r.mode with
  | 1 => .instr (r.make 0 0) s
  | 2 =>
    if k.fetchAvailable (s.pc + 1) then
      let b1 := s.memRead (s.pc + 1)
      .instr (r.make b1.1 0) b1.2
    else incomplete s
  | _ =>
    if k.fetchAvailable (s.pc + 1) then
      let b1 := s.memRead (s.pc + 1)
      if k.fetchAvailable (s.pc + 2) then
        let b2 := b1.2.memRead (s.pc + 2)
        .instr (r.make b1.1 b2.1) b2.2
      else incomplete b1.2
    else incomplete s

/-- Fetch and decode at PC, which stays `pc0` (60_exceptions R201): opcode availability, the illegal opcode, the legality of
the entry's mode (R221), then the operand bytes. -/
def fetchInstr (k : Params) (s : State) : FetchResult :=
  if k.fetchAvailable s.pc then
    let op := s.memRead s.pc
    match dispatch op.1 with
    | none => .stop (.illegalOpcode s.pc op.1) op.2
    | some r =>
      if legalPair r.mnemonic r.mode then fetchOperands k r op.1 op.2
      else .stop (.unsupportedMode s.pc op.1) op.2
  else .stop (.incompleteInstruction s.pc 0x00) s

/-- `ServiceNmi()` (60_exceptions R205). -/
def State.serviceNmi (s : State) : State := (s.enter .nmi s.pc).charge Config.interruptCycles

/-- Byte `i` of the DMA copy: read `{page, i}`, write OAM cell `i` (60_exceptions R211). -/
def State.dmaByte (page : Byte) (s : State) (i : Nat) : State :=
  let v := s.memRead (word (BitVec.ofNat 8 i) page)
  v.2.oamWrite (BitVec.ofNat 8 i) v.1

/-- `ServiceDma()`: 256 bytes in ascending order, then 513 cycles, 514 when the DMA began on an odd cycle (60_exceptions R211,
R212). -/
def State.serviceDma (s : State) : State :=
  let t := (List.range 256).foldl (State.dmaByte s.dmaPage) s
  { t with dmaPending := false }.charge (if s.cycOdd then Config.dmaCyclesOdd else Config.dmaCyclesEven)

/-- `cyc_odd <- cyc_odd ^ cycles[0]`, at the end of every completed step (60_exceptions R200). -/
def State.account (s : State) : State := { s with cycOdd := s.cycOdd ^^ oddCount s.cycles }

/-- The start of a step's work: no bus transaction of it has happened yet. -/
def State.begin (s : State) : State := { s with bus := [] }

/-- A latched edge while NMI is disabled, under the policy (60_exceptions R206). -/
def State.gateNmi (policy : NmiPolicy) (s : State) : State :=
  if s.nmiPending && !s.nmiEn && policy == .drop then { s with nmiPending := false } else s

/-- What a call of `Step()` comes to: the next state, or a fault and the halted state it leaves, or a refusal. -/
inductive StepResult where
  | next (s : State)
  | fault (f : Fault) (left : State)
  | refused (r : Refusal)
  deriving DecidableEq, Repr

/-- A fault halts CORE: the record is filled and nothing else of the state changes (60_exceptions R225). -/
def State.halt (s : State) (f : Fault) : State := { s with fault := some f }

/-- `ExecuteInstruction()` with the end of `Step()` after it (60_exceptions R201, R200). -/
def executeInstruction (k : Params) (s : State) : StepResult :=
  match fetchInstr k s with
  | .stop f t => .fault f (t.halt f)
  | .instr i t =>
    match exec i t with
    | .next u => .next u.account
    | .fault f => .fault f (t.halt f)
    | .refused r => .refused r

/-- `Step()` (60_exceptions R200): halted, then NMI if pending and enabled, then OAM DMA if pending, then one instruction. -/
def stepResult (k : Params) (s : State) : StepResult :=
  match s.fault with
  | some f => .fault f s
  | none =>
    if s.nmiPending && s.nmiEn then .next s.begin.serviceNmi.account
    else
      let t := s.begin.gateNmi k.nmiPolicy
      if t.dmaPending then .next t.serviceDma.account
      else executeInstruction k t

/-- The host's view of a step: a fault outcome carries the record (log 6). -/
def stepWith (k : Params) (s : State) : Host.Outcome State Fault Refusal :=
  match stepResult k s with
  | .next t => .next t
  | .fault f _ => .fault f
  | .refused r => .refused r

/-- The state CORE is in after a call of `Step()`, whatever it returned (60_exceptions R225, R226). -/
def State.afterStep (k : Params) (s : State) : State :=
  match stepResult k s with
  | .next t => t
  | .fault _ left => left
  | .refused _ => s

/-- What the outside may do, one at a time, between steps (00_scope R3, R4, R5; log 12). -/
inductive Event where
  | step
  | raiseNmi
  | reset
  deriving DecidableEq, Repr

/-- The state after an event. -/
def State.after (k : Params) (s : State) : Event → State
  | .step => s.afterStep k
  | .raiseNmi => s.raiseNmi
  | .reset => s.doReset

/-- Where a loaded word can stand: three stored cells from an address on. -/
def State.loadable (s : State) (addr : Addr) : Bool :=
  (s.cell addr).isSome && (s.cell (addr + 1)).isSome && (s.cell (addr + 2)).isSome

/-- Put a byte into the stored cell behind an address, ROM included: the launch does this, not CORE (20_memory R46). -/
def State.poke (s : State) (addr : Addr) (v : Byte) : State :=
  match s.cell addr with
  | some c => { s with mem := s.mem.write c v }
  | none => s

/-- Put bytes at an address and the ones after it. -/
def State.pokeBytes (s : State) (addr : Addr) : List Byte → State
  | [] => s
  | b :: bs => (s.poke addr b).pokeBytes (addr + 1) bs

/-- Load three instruction bytes where the next step fetches, and leave nothing pending that a step serves first. PC moves to
`0x0200` (RAM) only where no three stored cells stand at it (log 13). -/
def State.loadAtPc (s : State) (bytes : List Byte) : State :=
  let addr : Addr := if s.loadable s.pc then s.pc else 0x0200
  { s with pc := addr, fault := none, nmiPending := false, dmaPending := false }.pokeBytes addr bytes

end Sys2Proof.Machine
end

