-- ==== Sys2Proof/Machine/Step.lean ====
section
/-! DEFINITION. The step of this hardware, and the load of an instruction where the next step fetches. -/

namespace Sys2Proof.Machine

/-- `Step()` with this hardware's parameters (60_exceptions R200; 00_scope R6). -/
def step (s : State) : Host.Outcome State Fault Refusal := stepWith Params.hardware s

/-- `s` with a table word's instruction loaded so that the next step runs it (log 13). -/
def State.withFetchWord (s : State) (nbits w : Nat) : State := s.loadAtPc (tableBytes nbits w)

end Sys2Proof.Machine
end

