-- ==== Sys2Proof/Safety.lean ====
section
/-! DEFINITION. What counts as a sound state and a safe run. -/

namespace Sys2Proof

open Machine

/-- A key of `State.mem` names a physical cell: RAM by its lowest address (20_memory R40), PRG by its own (R43). -/
def physicalCell (k : Nat) : Bool := decide (k < 0x0800 ∨ (0x8000 ≤ k ∧ k < 0x10000))

/-- The stored bytes are in canonical form and stand only where the address map has cells (20_memory R38 to R43). -/
structure MemorySound (s : State) : Prop where
  memCanonical : s.mem.wf = true
  memCells : ∀ c ∈ s.mem, physicalCell c.1 = true
  oamCanonical : s.oam.wf = true
  oamCells : ∀ c ∈ s.oam, c.1 < 256

/-- A halted machine stands at the unassigned opcode that its record names (60_exceptions R224, R225). -/
def HaltSound (s : State) : Prop :=
  ∀ f, s.fault = some f → ∃ op, f = .illegalOpcode s.pc op ∧ dispatch op = none

/-- The returned count: none yet, or between 2 and 514 (00_scope R5). -/
def CyclesSound (s : State) : Prop := s.cycles = 0 ∨ (2 ≤ s.cycles ∧ s.cycles ≤ 514)

/-- The invariant of every run. -/
structure Inv (s : State) : Prop where
  memory : MemorySound s
  halt : HaltSound s
  cycles : CyclesSound s

/-- A run of events of the interface, from a state (00_scope R5). -/
def runEvents (k : Params) : List Event → State → State
  | [], s => s
  | e :: es, s => runEvents k es (s.after k e)

/-- The states that some run reaches from a launch image through `Reset()` (10_state R25). -/
def Reachable (k : Params) (s : State) : Prop :=
  ∃ image : State, MemorySound image ∧ ∃ es, s = runEvents k es image.doReset

/-- The next `n` steps from a state end in no fault. -/
def SafeFor : Nat → State → Prop
  | 0, _ => True
  | n + 1, s => ∃ t, step s = .next t ∧ SafeFor n t

end Sys2Proof
end

