-- ==== Sys2Proof/Certificates/Slice0/Obligations.lean ====
section
/-! DEFINITION. The statements for the provers, with the lists of instruction forms they quantify over. -/

namespace Sys2Proof.Forms

open Sys2Proof.Machine

/-- A read-class form: the instruction, its operand, the base cycles and the penalty mark of 30_encoding R59. -/
structure ReadForm where
  instr : Instr
  src : Source
  base : Nat
  pen : Bool
  deriving DecidableEq, Repr

/-- A form with an effective address that stores or jumps: the instruction, its mode, its cycles (R59). -/
structure EaForm where
  instr : Instr
  mode : EaMode
  base : Nat
  deriving DecidableEq, Repr

/-- What a read-class form reads, after PC is at `npc` (40_addressing_modes R85). -/
def ReadForm.fetched (f : ReadForm) (s : State) : Fetched := readSource f.src (s.advance (width f.src.mode))

/-- `npc` of a read-class form (10_state R11). -/
def ReadForm.npc (f : ReadForm) (s : State) : Addr := s.pc + BitVec.ofNat 16 (width f.src.mode)

/-- The cycles of a read-class form: the base and, where the opcode is marked `+`, one more on a page crossing (R90). -/
def ReadForm.cost (f : ReadForm) (s : State) : Nat := f.base + (if f.pen && (f.fetched s).crossed then 1 else 0)

/-- The resolved operand of a form with an effective address. -/
def EaForm.resolved (f : EaForm) (s : State) : Resolved := resolve f.mode (s.advance (width f.mode.mode))

/-- `npc` of a form with an effective address. -/
def EaForm.npc (f : EaForm) (s : State) : Addr := s.pc + BitVec.ofNat 16 (width f.mode.mode)

/-- The eight forms of LDA, ADC, SBC, AND, ORA, EOR, CMP with their cycles (30_encoding R59). -/
def eightForms (imm zp zpx : Byte → Instr) (abs abx aby : Addr → Instr) (izx izy : Byte → Instr) (b : Byte) (w : Addr) :
    List ReadForm :=
  [⟨imm b, .imm b, 2, false⟩, ⟨zp b, .ea (.zp b), 3, false⟩, ⟨zpx b, .ea (.zpx b), 4, false⟩,
   ⟨abs w, .ea (.abs w), 4, false⟩, ⟨abx w, .ea (.abx w), 4, true⟩, ⟨aby w, .ea (.aby w), 4, true⟩,
   ⟨izx b, .ea (.izx b), 6, false⟩, ⟨izy b, .ea (.izy b), 5, true⟩]

/-- The three forms of CPX and CPY (R59). -/
def threeForms (imm zp : Byte → Instr) (abs : Addr → Instr) (b : Byte) (w : Addr) : List ReadForm :=
  [⟨imm b, .imm b, 2, false⟩, ⟨zp b, .ea (.zp b), 3, false⟩, ⟨abs w, .ea (.abs w), 4, false⟩]

def ldaForms := eightForms .ldaImm .ldaZp .ldaZpx .ldaAbs .ldaAbx .ldaAby .ldaIzx .ldaIzy
def adcForms := eightForms .adcImm .adcZp .adcZpx .adcAbs .adcAbx .adcAby .adcIzx .adcIzy
def sbcForms := eightForms .sbcImm .sbcZp .sbcZpx .sbcAbs .sbcAbx .sbcAby .sbcIzx .sbcIzy
def andForms := eightForms .andImm .andZp .andZpx .andAbs .andAbx .andAby .andIzx .andIzy
def oraForms := eightForms .oraImm .oraZp .oraZpx .oraAbs .oraAbx .oraAby .oraIzx .oraIzy
def eorForms := eightForms .eorImm .eorZp .eorZpx .eorAbs .eorAbx .eorAby .eorIzx .eorIzy
def cmpForms := eightForms .cmpImm .cmpZp .cmpZpx .cmpAbs .cmpAbx .cmpAby .cmpIzx .cmpIzy
def cpxForms := threeForms .cpxImm .cpxZp .cpxAbs
def cpyForms := threeForms .cpyImm .cpyZp .cpyAbs

/-- The five forms of LDX; the indexed ones use Y (R59). -/
def ldxForms (b : Byte) (w : Addr) : List ReadForm :=
  [⟨.ldxImm b, .imm b, 2, false⟩, ⟨.ldxZp b, .ea (.zp b), 3, false⟩, ⟨.ldxZpy b, .ea (.zpy b), 4, false⟩,
   ⟨.ldxAbs w, .ea (.abs w), 4, false⟩, ⟨.ldxAby w, .ea (.aby w), 4, true⟩]

/-- The five forms of LDY; the indexed ones use X (R59). -/
def ldyForms (b : Byte) (w : Addr) : List ReadForm :=
  [⟨.ldyImm b, .imm b, 2, false⟩, ⟨.ldyZp b, .ea (.zp b), 3, false⟩, ⟨.ldyZpx b, .ea (.zpx b), 4, false⟩,
   ⟨.ldyAbs w, .ea (.abs w), 4, false⟩, ⟨.ldyAbx w, .ea (.abx w), 4, true⟩]

/-- The two forms of BIT (R59). -/
def bitForms (b : Byte) (w : Addr) : List ReadForm :=
  [⟨.bitZp b, .ea (.zp b), 3, false⟩, ⟨.bitAbs w, .ea (.abs w), 4, false⟩]

/-- The four memory forms of a read-modify-write instruction (R59). -/
def rmwForms (zp zpx : Byte → Instr) (abs abx : Addr → Instr) (b : Byte) (w : Addr) : List EaForm :=
  [⟨zp b, .zp b, 5⟩, ⟨zpx b, .zpx b, 6⟩, ⟨abs w, .abs w, 6⟩, ⟨abx w, .abx w, 7⟩]

def aslForms := rmwForms .aslZp .aslZpx .aslAbs .aslAbx
def lsrForms := rmwForms .lsrZp .lsrZpx .lsrAbs .lsrAbx
def rolForms := rmwForms .rolZp .rolZpx .rolAbs .rolAbx
def rorForms := rmwForms .rorZp .rorZpx .rorAbs .rorAbx
def incForms := rmwForms .incZp .incZpx .incAbs .incAbx
def decForms := rmwForms .decZp .decZpx .decAbs .decAbx

/-- The memory forms of every read-modify-write instruction. -/
def allRmwForms (b : Byte) (w : Addr) : List EaForm :=
  aslForms b w ++ lsrForms b w ++ rolForms b w ++ rorForms b w ++ incForms b w ++ decForms b w

/-- The forms of STA, STX, STY (R59). -/
def staForms (b : Byte) (w : Addr) : List EaForm :=
  [⟨.staZp b, .zp b, 3⟩, ⟨.staZpx b, .zpx b, 4⟩, ⟨.staAbs w, .abs w, 4⟩, ⟨.staAbx w, .abx w, 5⟩, ⟨.staAby w, .aby w, 5⟩,
   ⟨.staIzx b, .izx b, 6⟩, ⟨.staIzy b, .izy b, 6⟩]
def stxForms (b : Byte) (w : Addr) : List EaForm :=
  [⟨.stxZp b, .zp b, 3⟩, ⟨.stxZpy b, .zpy b, 4⟩, ⟨.stxAbs w, .abs w, 4⟩]
def styForms (b : Byte) (w : Addr) : List EaForm :=
  [⟨.styZp b, .zp b, 3⟩, ⟨.styZpx b, .zpx b, 4⟩, ⟨.styAbs w, .abs w, 4⟩]

/-- The eight branches, each with the condition of its rule (44_branch R136 to R143). -/
def branchForms (off : Byte) (p : Status) : List (Instr × Bool) :=
  [(.bccRel off, decide (p.c = false)), (.bcsRel off, decide (p.c = true)), (.beqRel off, decide (p.z = true)),
   (.bneRel off, decide (p.z = false)), (.bmiRel off, decide (p.n = true)), (.bplRel off, decide (p.n = false)),
   (.bvcRel off, decide (p.v = false)), (.bvsRel off, decide (p.v = true))]

/-- `SetZN(v)` said with numbers (10_state R17). -/
def withZN (p : Status) (v : Byte) : Status := { p with z := decide (v.toNat = 0), n := decide (128 ≤ v.toNat) }

/-- The state after a read-class form, but for what the instruction itself writes: PC at `npc`, the cycles, the reads.
-/
def ReadForm.done (f : ReadForm) (s : State) : State :=
  { (f.fetched s).state with pc := f.npc s, cycles := f.cost s }

/-- The byte a memory form of a read-modify-write instruction reads. -/
def EaForm.operand (f : EaForm) (s : State) : Byte := (f.resolved s).state.answer (f.resolved s).ea

/-- The state after a memory form of a read-modify-write instruction that writes `r` and leaves the flags `p`: one read
of the effective address, one write of it (42_shift_incdec R110). -/
def EaForm.modified (f : EaForm) (s : State) (r : Byte) (p : Status) : State :=
  { ((f.resolved s).state.afterRead (f.resolved s).ea).memWrite (f.resolved s).ea r with
    pc := f.npc s, p := p, cycles := f.base }

/-- The state after an accumulator form (42_shift_incdec R110). -/
def accModified (s : State) (r : Byte) (p : Status) : State := { s with a := r, p := p, pc := s.pc + 1, cycles := 2 }

/-- `n` bytes fetched from `addr` on, in ascending order, and the state after those reads (30_encoding R57). -/
def fetchBytes : Nat → Addr → State → List Byte × State
  | 0, _, s => ([], s)
  | n + 1, addr, s =>
    let b := s.memRead addr
    let r := fetchBytes n (addr + 1) b.2
    (b.1 :: r.1, r.2)

/-- The operand of an instruction as a mode with an effective address, where its mode has one. -/
def eaModeOf (i : Instr) : Option EaMode :=
  match i.mode, i.descriptor.operand with
  | .ZEROPAGE, .u8 b => some (.zp b)
  | .ZEROPAGE_X, .u8 b => some (.zpx b)
  | .ZEROPAGE_Y, .u8 b => some (.zpy b)
  | .ABSOLUTE, .u16 w => some (.abs w)
  | .ABSOLUTE_X, .u16 w => some (.abx w)
  | .ABSOLUTE_Y, .u16 w => some (.aby w)
  | .INDIRECT, .u16 w => some (.ind w)
  | .INDIRECT_X, .u8 b => some (.izx b)
  | .INDIRECT_Y, .u8 b => some (.izy b)
  | _, _ => none

/-- `crossed` of an instruction (40_addressing_modes R84). -/
def crossedOf (i : Instr) (s : State) : Bool :=
  match eaModeOf i with
  | some m => (resolve m (s.advance (width i.mode))).crossed
  | none => false

/-- `taken` and `bcross` of a branch, false for any other instruction (44_branch R135). -/
def branchOf (i : Instr) (s : State) : Bool × Bool :=
  match i.mode, i.descriptor.operand with
  | .RELATIVE, .u8 off =>
    ((branchForms off s.p).any (fun f => f.1 == i && f.2),
      decide ((s.pc + 2 + off.signExtend 16).toNat / 256 ≠ (s.pc + 2).toNat / 256))
  | _, _ => (false, false)

/-- The 105 unassigned opcode bytes as 30_encoding R60 lists them. -/
def unassignedBytes : List Byte :=
  [0x02, 0x03, 0x04, 0x07, 0x0B, 0x0C, 0x0F, 0x12, 0x13, 0x14, 0x17, 0x1A, 0x1B, 0x1C, 0x1F] ++
  [0x22, 0x23, 0x27, 0x2B, 0x2F, 0x32, 0x33, 0x34, 0x37, 0x3A, 0x3B, 0x3C, 0x3F, 0x42, 0x43] ++
  [0x44, 0x47, 0x4B, 0x4F, 0x52, 0x53, 0x54, 0x57, 0x5A, 0x5B, 0x5C, 0x5F, 0x62, 0x63, 0x64] ++
  [0x67, 0x6B, 0x6F, 0x72, 0x73, 0x74, 0x77, 0x7A, 0x7B, 0x7C, 0x7F, 0x80, 0x82, 0x83, 0x87] ++
  [0x89, 0x8B, 0x8F, 0x92, 0x93, 0x97, 0x9B, 0x9C, 0x9E, 0x9F, 0xA3, 0xA7, 0xAB, 0xAF, 0xB2] ++
  [0xB3, 0xB7, 0xBB, 0xBF, 0xC2, 0xC3, 0xC7, 0xCB, 0xCF, 0xD2, 0xD3, 0xD4, 0xD7, 0xDA, 0xDB] ++
  [0xDC, 0xDF, 0xE2, 0xE3, 0xE7, 0xEB, 0xEF, 0xF2, 0xF3, 0xF4, 0xF7, 0xFA, 0xFB, 0xFC, 0xFF]

/-- The instructions that write stack cells, and those that store at an effective address. -/
def stackWriters : List Mnemonic := [.PHA, .PHP, .JSR, .BRK]
def storeWriters : List Mnemonic := [.STA, .STX, .STY, .ASL, .LSR, .ROL, .ROR, .INC, .DEC]

/-- An instruction that writes no memory: neither list, or the accumulator form of a shift. -/
def writesNoMemory (i : Instr) : Bool :=
  (!stackWriters.contains i.mnemonic) && (!storeWriters.contains i.mnemonic || i.mode == .ACCUMULATOR)

/-- A state in which a step runs an instruction: not halted, no NMI to serve, no DMA pending (60_exceptions R200). -/
def RunsInstruction (s : State) : Prop :=
  s.fault = none ∧ (s.nmiPending && s.nmiEn) = false ∧ s.dmaPending = false

end Sys2Proof.Forms

open Sys2Proof Sys2Proof.Machine Sys2Proof.Forms

-- Encoding

/-- Decode and encode agree: no bit of an operand is dropped, for every instruction and every operand (30_encoding R53,
R55, R57). The opcode bytes themselves are the spec's decision D1 (log 4). -/
def Obligations.DecodeOfEncodeIsTheInstruction : Prop :=
  ∀ (i : Instr) (rest : List Byte), decode (encode i ++ rest) = .ok i rest

/-- The other direction: each byte string that decodes is the encoding of what it decodes to, so no encoding bit is
ignored and no two encodings mean one instruction (30_encoding R53, R55, R61). -/
def Obligations.EncodeOfDecodeIsTheBytes : Prop :=
  ∀ (bytes rest : List Byte) (i : Instr), decode bytes = .ok i rest → bytes = encode i ++ rest

/-- Words of the spec's own example and examples, one per family, written out (30_encoding R59, R63, R65). -/
def Obligations.SpecWordsDecode : Prop :=
  decode [0xA9, 0x50, 0x50, 0x85] = .ok (.ldaImm 0x50) [0x50, 0x85] ∧ decode [0x50, 0x85] = .ok (.bvcRel 0x85) [] ∧
  decode [0x1E, 0xF0, 0x02] = .ok (.aslAbx 0x02F0) [] ∧ decode [0x91, 0x40] = .ok (.staIzy 0x40) [] ∧
  decode [0x6C, 0xFF, 0x02] = .ok (.jmpInd 0x02FF) [] ∧ decode [0x48] = .ok .pha [] ∧ decode [0x9A] = .ok .txs [] ∧
  decode [0x78] = .ok .sei [] ∧ decode [0x00] = .ok .brk [] ∧ decode [0x02] = .illegalOpcode 0x02

/-- Every constructor is a legal (mnemonic, mode) pair with an operand of the mode's width, its encoding has that width,
and `Dispatch` maps its opcode byte to its mnemonic and mode; the bytes with no entry are exactly the 105 that the spec
lists (30_encoding R54, R55, R60, R62; the assignment of bytes is the spec's decision D1, log 4). -/
def Obligations.DispatchTableIsTheInstructionSet : Prop :=
  (∀ i : Instr, i.wf = true ∧ (encode i).length = width i.mode ∧
    ∃ r, dispatch i.opcode = some r ∧ r.mnemonic = i.mnemonic ∧ r.mode = i.mode) ∧
  (∀ op : Byte, dispatch op = none ↔ op ∈ unassignedBytes) ∧ unassignedBytes.length = 105

-- Registers, status, memory

/-- Bit 5 of P: every byte image of P has it 1, and a load of P ignores it in the byte (10_state R14). A load keeps the
seven other bits of the byte, B among them, and a load of P's own image gives P back (10_state R13, R16); that B is
stored and loaded is the spec's decision D11 (log 4). -/
def Obligations.StatusBitFiveIsHardwired : Prop :=
  (∀ p : Status, p.toByte.getLsbD 5 = true ∧ p.imageSet.getLsbD 5 = true ∧ p.imageAsIs.getLsbD 5 = true) ∧
  (∀ v v' : Byte, (∀ k, k ≠ 5 → v.getLsbD k = v'.getLsbD k) → Status.ofByte v = Status.ofByte v') ∧
  (∀ v : Byte, (Status.ofByte v).toByte = v ||| 0x20) ∧ (∀ p : Status, Status.ofByte p.toByte = p)

/-- `SetZN(v)`: Z says the value is 0, N is its bit 7, and no other flag changes (10_state R17). -/
def Obligations.SetZNWritesZAndNOnly : Prop :=
  ∀ (p : Status) (v : Byte),
    (p.setZN v).z = decide (v.toNat = 0) ∧ (p.setZN v).n = decide (128 ≤ v.toNat) ∧ (p.setZN v).c = p.c ∧
    (p.setZN v).i = p.i ∧ (p.setZN v).d = p.d ∧ (p.setZN v).b = p.b ∧ (p.setZN v).v = p.v

/-- `push(v); pop() == v` and SP is back, from every state; pulls and pushes go round modulo 256, with no fault: three
pulls from FD end at 00, sixteen pushes from FD at ED and from 0F at FF (20_memory R37). -/
def Obligations.PushThenPullReturnsTheByte : Prop :=
  (∀ (s : State) (v : Byte), (s.push v).pull.1 = v ∧ (s.push v).pull.2.sp = s.sp) ∧
  (∀ s : State, s.sp = 0xFD → s.pull.2.pull.2.pull.2.sp = 0x00) ∧
  (∀ (s : State) (vs : List Byte), (vs.foldl State.push s).sp = s.sp - BitVec.ofNat 8 vs.length) ∧
  (∀ (s : State) (vs : List Byte), vs.length = 16 →
    (s.sp = 0xFD → (vs.foldl State.push s).sp = 0xED) ∧ (s.sp = 0x0F → (vs.foldl State.push s).sp = 0xFF))

/-- The stack stays in page 1: a push changes at most the stored byte at `0x0100 | SP`, which then reads as the pushed
byte, and a pull changes no stored byte (20_memory R35, R36; the order of write and decrement is the spec's decision D7,
log 4). -/
def Obligations.StackOperationsStayInPageOne : Prop :=
  ∀ (s : State) (v : Byte) (a : Addr),
    (stackAddr s.sp).toNat = 0x0100 + s.sp.toNat ∧
    (s.push v).byteAt (stackAddr s.sp) = some v ∧
    (s.cell a ≠ s.cell (stackAddr s.sp) → (s.push v).byteAt a = s.byteAt a) ∧
    s.pull.2.byteAt a = s.byteAt a

/-- RAM is 2048 bytes behind `0x0000`-`0x1FFF`: a byte written through one alias is read through every alias, and a read
of any other RAM cell gives what it gave (20_memory R40). -/
def Obligations.RamIsMirrored : Prop :=
  ∀ (s : State) (v : Byte) (addr a : Addr), addr.toNat < 0x2000 → a.toNat < 0x2000 →
    (a.toNat % 0x0800 = addr.toNat % 0x0800 → ((s.memWrite addr v).memRead a).1 = v) ∧
    (a.toNat % 0x0800 ≠ addr.toNat % 0x0800 → ((s.memWrite addr v).memRead a).1 = (s.memRead a).1)

/-- No write outside RAM changes a stored byte: ROM drops it, and so does an address with no cell (20_memory R44, R39).
-/
def Obligations.WritesOutsideRamAreDropped : Prop :=
  ∀ (s : State) (v : Byte) (addr a : Addr), 0x2000 ≤ addr.toNat → (s.memWrite addr v).byteAt a = s.byteAt a

/-- Which addresses from `0x2000` up have a stored byte, and which. With a single 16 KiB bank the two halves of
`0x8000`-`0xFFFF` read alike; with 32 KiB each address has its own byte; with the unmapped variant there is none
(20_memory R43). The registers `0x2000`-`0x4017` have none (R41, R42), nor has `0x4018`-`0x7FFF` (R44), which is the
spec's decision D29 (log 4). -/
def Obligations.MapperVariantsResolve : Prop :=
  (∀ (s : State) (a a' : Addr), 0x8000 ≤ a.toNat → 0x8000 ≤ a'.toNat →
    (s.mapper = .prg16 → (s.cell a = s.cell a' ↔ a.toNat % 0x4000 = a'.toNat % 0x4000)) ∧
    (s.mapper = .prg32 → (s.cell a = s.cell a' ↔ a = a')) ∧
    (s.mapper = .prg16 → s.byteAt a = some (s.mem.read (0x8000 + a.toNat % 0x4000))) ∧
    (s.mapper = .prg32 → s.byteAt a = some (s.mem.read a.toNat)) ∧
    (s.mapper = .unmapped → s.byteAt a = none)) ∧
  (∀ (s : State) (a : Addr), 0x2000 ≤ a.toNat → a.toNat < 0x8000 → s.byteAt a = none)

/-- What CORE does on its own write: only `0x4014` requests a DMA, with the byte as its page, and only the control
register and its mirrors set the NMI enable, from bit 7 (20_memory R31). The two addresses are the spec's decision D18
(log 4). -/
def Obligations.WriteSnoops : Prop :=
  ∀ (s : State) (v : Byte) (addr : Addr),
    (addr.toNat = 0x4014 → (s.memWrite addr v).dmaPending = true ∧ (s.memWrite addr v).dmaPage = v ∧
      (s.memWrite addr v).nmiEn = s.nmiEn) ∧
    (0x2000 ≤ addr.toNat ∧ addr.toNat < 0x4000 ∧ addr.toNat % 8 = 0 →
      (s.memWrite addr v).nmiEn = decide (128 ≤ v.toNat) ∧ (s.memWrite addr v).dmaPending = s.dmaPending ∧
      (s.memWrite addr v).dmaPage = s.dmaPage) ∧
    (addr.toNat ≠ 0x4014 ∧ ¬ (0x2000 ≤ addr.toNat ∧ addr.toNat < 0x4000 ∧ addr.toNat % 8 = 0) →
      (s.memWrite addr v).nmiEn = s.nmiEn ∧ (s.memWrite addr v).dmaPending = s.dmaPending ∧
      (s.memWrite addr v).dmaPage = s.dmaPage)

-- Addressing modes

/-- The zero-page modes: the operand, or its sum with the index, modulo 256, never a page crossing, no access by the
mode; ZEROPAGE_Y belongs to LDX and STX alone (40_addressing_modes R74, R75, R76). -/
def Obligations.ZeroPageModesWrapInPageZero : Prop :=
  (∀ (b : Byte) (s : State),
    (resolve (.zp b) s).ea.toNat = b.toNat ∧
    (resolve (.zpx b) s).ea.toNat = (b.toNat + s.x.toNat) % 256 ∧
    (resolve (.zpy b) s).ea.toNat = (b.toNat + s.y.toNat) % 256 ∧
    ∀ m ∈ [EaMode.zp b, .zpx b, .zpy b], (resolve m s).crossed = false ∧ (resolve m s).state = s ∧ width m.mode = 2) ∧
  (∀ i : Instr, i.mode = .ZEROPAGE_Y → i.mnemonic = .LDX ∨ i.mnemonic = .STX)

/-- ABSOLUTE_X and ABSOLUTE_Y: the sum modulo 65536, and `crossed` exactly when the high byte changed, the wrap included
(40_addressing_modes R78, R79). -/
def Obligations.AbsoluteIndexedModes : Prop :=
  ∀ (w : Addr) (s : State),
    (∀ m x, (m, x) ∈ [(EaMode.abx w, s.x), (EaMode.aby w, s.y)] →
      (resolve m s).ea.toNat = (w.toNat + x.toNat) % 65536 ∧
      ((resolve m s).crossed = true ↔ (w.toNat + x.toNat) % 65536 / 256 ≠ w.toNat / 256) ∧
      (resolve m s).state = s ∧ width m.mode = 3)

/-- INDIRECT: the high byte of the target is read from the same page as the low byte, at the address whose low byte is
one more modulo 256; only JMP has the mode (40_addressing_modes R80; that the pointer is little-endian is the spec's
decision D8, log 4). -/
def Obligations.IndirectReadsWithinThePage : Prop :=
  (∀ (ptr hiAddr : Addr) (s : State), hiAddr.toNat = ptr.toNat / 256 * 256 + (ptr.toNat % 256 + 1) % 256 →
    let lo := s.memRead ptr
    let hi := lo.2.memRead hiAddr
    (resolve (.ind ptr) s).ea.toNat = hi.1.toNat * 256 + lo.1.toNat ∧ (resolve (.ind ptr) s).state = hi.2 ∧
    (resolve (.ind ptr) s).crossed = false) ∧
  width .INDIRECT = 3 ∧ (∀ i : Instr, i.mode = .INDIRECT → i.mnemonic = .JMP)

/-- INDIRECT_X and INDIRECT_Y: a little-endian zero-page pointer, indexed before or after; its high byte stays in page
0, which is the spec's decision D9 (log 4) (40_addressing_modes R81, R82). -/
def Obligations.ZeroPagePointerModes : Prop :=
  ∀ (b : Byte) (s : State) (p0 p1 q0 q1 : Addr),
    p0.toNat = (b.toNat + s.x.toNat) % 256 → p1.toNat = (b.toNat + s.x.toNat + 1) % 256 →
    q0.toNat = b.toNat → q1.toNat = (b.toNat + 1) % 256 →
    let lo := s.memRead p0
    let hi := lo.2.memRead p1
    let ylo := s.memRead q0
    let yhi := ylo.2.memRead q1
    let base := yhi.1.toNat * 256 + ylo.1.toNat
    (resolve (.izx b) s).ea.toNat = hi.1.toNat * 256 + lo.1.toNat ∧ (resolve (.izx b) s).crossed = false ∧
    (resolve (.izx b) s).state = hi.2 ∧
    (resolve (.izy b) s).ea.toNat = (base + s.y.toNat) % 65536 ∧
    ((resolve (.izy b) s).crossed = true ↔ (base + s.y.toNat) % 65536 / 256 ≠ base / 256) ∧
    (resolve (.izy b) s).state = yhi.2

/-- "Resolution reads X, Y and memory; it writes no register and no memory": whatever the mode, and with the operand
read included, only the transaction list and the count of free answers change. The transactions added are reads, at most
two by the mode and one more of the operand, whose value is what the bus answers at the effective address after the
mode's own reads (40_addressing_modes R70, R85, R86; 20_memory R30). -/
def Obligations.ResolutionWritesNothing : Prop :=
  (∀ (m : EaMode) (s : State), ∃ n added, (resolve m s).state = { s with answers := n, bus := added ++ s.bus } ∧
    added.length ≤ 2 ∧ ∀ e ∈ added, ∃ a v, e = .read a v) ∧
  (∀ (m : EaMode) (s : State),
    let r := resolve m s
    let f := readSource (.ea m) s
    f.value = r.state.answer r.ea ∧ f.crossed = r.crossed ∧
    ∃ n, f.state = { r.state with answers := n, bus := .read r.ea f.value :: r.state.bus }) ∧
  (∀ (v : Byte) (s : State), readSource (.imm v) s = { value := v, crossed := false, state := s })

-- Load, arithmetic, logic, compare, bit test

/-- LDA, LDX, LDY in every form: the register takes the operand, Z and N follow it, PC is at `npc`, and nothing else
changes but what reading the operand does (41_load_alu R90 to R93). The cycles are the spec's decision D4 (log 4). -/
def Obligations.LoadResult : Prop :=
  ∀ (b : Byte) (w : Addr) (s : State),
    (∀ f ∈ ldaForms b w, exec f.instr s =
      .next { f.done s with a := (f.fetched s).value, p := withZN s.p (f.fetched s).value }) ∧
    (∀ f ∈ ldxForms b w, exec f.instr s =
      .next { f.done s with x := (f.fetched s).value, p := withZN s.p (f.fetched s).value }) ∧
    (∀ f ∈ ldyForms b w, exec f.instr s =
      .next { f.done s with y := (f.fetched s).value, p := withZN s.p (f.fetched s).value })

/-- ADC in every form: the sum of A, operand and C modulo 256; C when the unsigned sum passes 255; V when the signed sum
lies outside -128..127; D plays no part (41_load_alu R94). The flag formulas and the binary arithmetic are the spec's
decisions D33 and D24, the cycles D4 (log 4). -/
def Obligations.AdcResult : Prop :=
  ∀ (b : Byte) (w : Addr) (s : State), ∀ f ∈ adcForms b w,
    let v := (f.fetched s).value
    let sum := s.a.toNat + v.toNat + s.p.c.toNat
    let signed := s.a.toInt + v.toInt + s.p.c.toNat
    exec f.instr s = .next { f.done s with
      a := BitVec.ofNat 8 sum
      p := { withZN s.p (BitVec.ofNat 8 sum) with
        c := decide (255 < sum), v := decide (signed < -128 ∨ 127 < signed) } }

/-- SBC in every form: A minus operand minus the borrow modulo 256; C when no borrow is needed; V when the signed
difference lies outside -128..127; D plays no part (41_load_alu R95). SBC is the spec's decision D3, with D24, D33 and
D4 (log 4). -/
def Obligations.SbcResult : Prop :=
  ∀ (b : Byte) (w : Addr) (s : State), ∀ f ∈ sbcForms b w,
    let v := (f.fetched s).value
    let borrow : Int := 1 - s.p.c.toNat
    let diff : Int := s.a.toNat - v.toNat - borrow
    let signed := s.a.toInt - v.toInt - borrow
    exec f.instr s = .next { f.done s with
      a := BitVec.ofInt 8 diff
      p := { withZN s.p (BitVec.ofInt 8 diff) with
        c := decide (0 ≤ diff), v := decide (signed < -128 ∨ 127 < signed) } }

/-- AND, ORA, EOR in every form: A takes the bitwise result, Z and N follow it, C and V stay (41_load_alu R96 to R98).
ORA and EOR are the spec's decision D3, the cycles D4 (log 4). -/
def Obligations.LogicResult : Prop :=
  ∀ (b : Byte) (w : Addr) (s : State),
    (∀ f ∈ andForms b w, exec f.instr s =
      .next { f.done s with a := s.a &&& (f.fetched s).value, p := withZN s.p (s.a &&& (f.fetched s).value) }) ∧
    (∀ f ∈ oraForms b w, exec f.instr s =
      .next { f.done s with a := s.a ||| (f.fetched s).value, p := withZN s.p (s.a ||| (f.fetched s).value) }) ∧
    (∀ f ∈ eorForms b w, exec f.instr s =
      .next { f.done s with a := s.a ^^^ (f.fetched s).value, p := withZN s.p (s.a ^^^ (f.fetched s).value) })

/-- CMP, CPX, CPY in every form: C says register >= operand unsigned, Z says equal, N is bit 7 of the difference modulo
256; no register, and V, D, I, B stay (41_load_alu R99 to R101). The compares are the spec's decision D3, the cycles D4
(log 4). -/
def Obligations.CompareResult : Prop :=
  ∀ (b : Byte) (w : Addr) (s : State),
    ∀ f r, (f ∈ cmpForms b w ∧ r = s.a) ∨ (f ∈ cpxForms b w ∧ r = s.x) ∨ (f ∈ cpyForms b w ∧ r = s.y) →
      let v := (f.fetched s).value
      exec f.instr s = .next { f.done s with
        p := { s.p with
          c := decide (v.toNat ≤ r.toNat), z := decide (v.toNat = r.toNat)
          n := decide (128 ≤ (r.toNat + 256 - v.toNat) % 256) } }

/-- BIT in both forms: Z from `A & v`, N and V from bits 7 and 6 of the operand; no register, and C, D, I, B stay
(41_load_alu R102). BIT is the spec's decision D3, the cycles D4 (log 4). -/
def Obligations.BitTestResult : Prop :=
  ∀ (b : Byte) (w : Addr) (s : State), ∀ f ∈ bitForms b w,
    let v := (f.fetched s).value
    exec f.instr s = .next { f.done s with
      p := { s.p with z := decide ((s.a &&& v).toNat = 0), n := decide (128 ≤ v.toNat), v := decide (64 ≤ v.toNat % 128) } }

-- Shift, rotate, increment, decrement

/-- ASL, LSR, ROL, ROR in memory and on A: doubled or halved, with C shifted out and, for the rotates, shifted in; Z and
N follow the result; V, D, I, B stay; in memory exactly one read and one write of the effective address (42_shift_incdec
R110 to R114). LSR, ROL, ROR are the spec's decision D3, the single write D10, the cycles D4 (log 4). -/
def Obligations.ShiftResult : Prop :=
  ∀ (b : Byte) (w : Addr) (s : State),
    let asl := fun v : Byte => (BitVec.ofNat 8 (2 * v.toNat), decide (128 ≤ v.toNat))
    let lsr := fun v : Byte => (BitVec.ofNat 8 (v.toNat / 2), decide (v.toNat % 2 = 1))
    let rol := fun v : Byte => (BitVec.ofNat 8 (2 * v.toNat + s.p.c.toNat), decide (128 ≤ v.toNat))
    let ror := fun v : Byte => (BitVec.ofNat 8 (v.toNat / 2 + 128 * s.p.c.toNat), decide (v.toNat % 2 = 1))
    ∀ op forms acc, (op, forms, acc) ∈
        [(asl, aslForms b w, Instr.aslAcc), (lsr, lsrForms b w, .lsrAcc), (rol, rolForms b w, .rolAcc), (ror, rorForms b w, .rorAcc)] →
      (∀ f ∈ forms, exec f.instr s = .next (f.modified s (op (f.operand s)).1
        { withZN s.p (op (f.operand s)).1 with c := (op (f.operand s)).2 })) ∧
      exec acc s = .next (accModified s (op s.a).1 { withZN s.p (op s.a).1 with c := (op s.a).2 })

/-- INC, DEC in every form and INX, INY, DEX, DEY: one more or one less modulo 256, Z and N follow it, C and V stay; in
memory one read and one write; on X and Y no memory access (42_shift_incdec R115 to R120). All are the spec's decision
D3, the cycles D4 (log 4). -/
def Obligations.IncDecResult : Prop :=
  ∀ (b : Byte) (w : Addr) (s : State),
    let up := fun v : Byte => BitVec.ofNat 8 (v.toNat + 1)
    let down := fun v : Byte => BitVec.ofNat 8 (v.toNat + 255)
    (∀ f ∈ incForms b w, exec f.instr s = .next (f.modified s (up (f.operand s)) (withZN s.p (up (f.operand s))))) ∧
    (∀ f ∈ decForms b w, exec f.instr s = .next (f.modified s (down (f.operand s)) (withZN s.p (down (f.operand s))))) ∧
    exec .inx s = .next { s with x := up s.x, p := withZN s.p (up s.x), pc := s.pc + 1, cycles := 2 } ∧
    exec .iny s = .next { s with y := up s.y, p := withZN s.p (up s.y), pc := s.pc + 1, cycles := 2 } ∧
    exec .dex s = .next { s with x := down s.x, p := withZN s.p (down s.x), pc := s.pc + 1, cycles := 2 } ∧
    exec .dey s = .next { s with y := down s.y, p := withZN s.p (down s.y), pc := s.pc + 1, cycles := 2 }

-- Stores

/-- STA, STX, STY in every form: exactly one write of the register at the effective address, which is not read first; no
register but PC, no flag, and never a penalty cycle (43_store R130 to R133). The cycles are the spec's decision D4, that
the target is not read D10 (log 4). -/
def Obligations.StoreResult : Prop :=
  ∀ (b : Byte) (w : Addr) (s : State),
    ∀ f r, (f ∈ staForms b w ∧ r = s.a) ∨ (f ∈ stxForms b w ∧ r = s.x) ∨ (f ∈ styForms b w ∧ r = s.y) →
      exec f.instr s = .next { (f.resolved s).state.memWrite (f.resolved s).ea r with pc := f.npc s, cycles := f.base }

/-- What a store and a read-modify-write instruction leave: every stored byte whose cell is not that of the effective
address, and, where the effective address is RAM, the byte there is the one written (43_store R130, 42_shift_incdec
R110). -/
def Obligations.StoresChangeOnlyTheirCell : Prop :=
  ∀ (b : Byte) (w : Addr) (s t : State),
    ∀ f ∈ staForms b w ++ stxForms b w ++ styForms b w ++ allRmwForms b w, exec f.instr s = .next t →
      (∀ a, s.cell a ≠ s.cell (f.resolved s).ea → t.byteAt a = s.byteAt a) ∧
      (0x2000 ≤ (f.resolved s).ea.toNat → ∀ a, t.byteAt a = s.byteAt a) ∧
      ((f.resolved s).ea.toNat < 0x2000 → ∃ v rest, t.bus = .write (f.resolved s).ea v :: rest ∧
        t.byteAt (f.resolved s).ea = some v)

-- Branches, jumps, returns

/-- Each branch is taken exactly when its condition holds. Taken: PC is `npc` plus the signed offset modulo 65536, in 3
cycles, or 4 when that is in another page than `npc`. Not taken: PC is `npc`, in 2 cycles. Nothing else changes
(44_branch R135 to R143, 70_reset R253). The conditions but BVC's are the spec's decision D30 (log 4). -/
def Obligations.BranchResult : Prop :=
  ∀ (off : Byte) (s : State), ∀ f ∈ branchForms off s.p,
    let npc := s.pc + 2
    let target := BitVec.ofInt 16 (npc.toNat + off.toInt)
    (f.2 = true → exec f.1 s =
      .next { s with pc := target, cycles := if target.toNat / 256 ≠ npc.toNat / 256 then 4 else 3 }) ∧
    (f.2 = false → exec f.1 s = .next { s with pc := npc, cycles := 2 })

/-- JMP in both modes: PC is the resolved target, with only the pointer reads of INDIRECT beside it. JSR: push the
address of its last byte, `pc0 + 2`, high byte first, then PC is the operand (45_jump_return R150, R151). The cycles are
the spec's decision D4 (log 4). -/
def Obligations.JumpAndCallResult : Prop :=
  ∀ (w : Addr) (s : State),
    let ret := s.pc + 2
    exec (.jmpAbs w) s = .next { s with pc := w, cycles := 3 } ∧
    exec (.jmpInd w) s = .next { (resolve (.ind w) s).state with pc := (resolve (.ind w) s).ea, cycles := 5 } ∧
    exec (.jsrAbs w) s =
      .next { (s.push (BitVec.ofNat 8 (ret.toNat / 256))).push (BitVec.ofNat 8 (ret.toNat % 256)) with pc := w, cycles := 6 }

/-- RTS: pull the low byte, then the high byte, and PC is that word plus one; no flag changes (45_jump_return R152). -/
def Obligations.RtsResult : Prop :=
  ∀ s : State,
    let lo := s.pull
    let hi := lo.2.pull
    exec .rts s = .next { hi.2 with pc := BitVec.ofNat 16 (hi.1.toNat * 256 + lo.1.toNat + 1), cycles := 6 }

/-- RTI: pull P, then PC low, then PC high, with no increment, and leave `SERVICING_NMI` (45_jump_return R153). That PC
takes no increment is the spec's decision D13, and that B is loaded D11 (log 4). -/
def Obligations.RtiResult : Prop :=
  ∀ s : State,
    let p := s.pull
    let lo := p.2.pull
    let hi := lo.2.pull
    exec .rti s = .next { hi.2 with
      pc := BitVec.ofNat 16 (hi.1.toNat * 256 + lo.1.toNat), p := Status.ofByte p.1, svcNmi := false, cycles := 6 }

/-- The round trip of JSR and RTS: after JSR, an RTS in any state that has the same SP and the same two stack bytes
continues at the instruction after the JSR, with SP as before the call (45_jump_return R151, R152; 95_test_vectors
T-S4). -/
def Obligations.JsrThenRtsComesBack : Prop :=
  ∀ (w : Addr) (s t u : State), exec (.jsrAbs w) s = .next t → u.sp = t.sp →
    u.byteAt (stackAddr s.sp) = t.byteAt (stackAddr s.sp) →
    u.byteAt (stackAddr (s.sp - 1)) = t.byteAt (stackAddr (s.sp - 1)) →
    ∃ r, exec .rts u = .next r ∧ r.pc = s.pc + 3 ∧ r.sp = s.sp

-- Stack, transfer, flags, BRK, NOP

/-- PHA and PHP push A, or P with bits 5 and 4 set, in 3 cycles, and write no flag; PLA pulls A with Z and N from it,
PLP pulls every stored bit of P from its bit of the byte, in 4 cycles (46_stack R160 to R163). That PLP loads B is the
spec's decision D11, the cycles D4 (log 4). -/
def Obligations.StackInstructionResult : Prop :=
  ∀ s : State,
    exec .pha s = .next { s.push s.a with pc := s.pc + 1, cycles := 3 } ∧
    exec .php s = .next { s.push (s.p.toByte ||| 0x30) with pc := s.pc + 1, cycles := 3 } ∧
    exec .pla s = .next { s.pull.2 with a := s.pull.1, p := withZN s.p s.pull.1, pc := s.pc + 1, cycles := 4 } ∧
    exec .plp s = .next { s.pull.2 with
      p := { c := s.pull.1.getLsbD 0, z := s.pull.1.getLsbD 1, i := s.pull.1.getLsbD 2, d := s.pull.1.getLsbD 3
             b := s.pull.1.getLsbD 4, v := s.pull.1.getLsbD 6, n := s.pull.1.getLsbD 7 }
      pc := s.pc + 1, cycles := 4 }

/-- The six transfers: the destination takes the source, Z and N follow it except in TXS; 2 cycles, no memory access
(47_transfer R170 to R176). Which register is which is the spec's decision D30, the cycles D4 (log 4). -/
def Obligations.TransferResult : Prop :=
  ∀ s : State,
    exec .tax s = .next { s with x := s.a, p := withZN s.p s.a, pc := s.pc + 1, cycles := 2 } ∧
    exec .tay s = .next { s with y := s.a, p := withZN s.p s.a, pc := s.pc + 1, cycles := 2 } ∧
    exec .txa s = .next { s with a := s.x, p := withZN s.p s.x, pc := s.pc + 1, cycles := 2 } ∧
    exec .tya s = .next { s with a := s.y, p := withZN s.p s.y, pc := s.pc + 1, cycles := 2 } ∧
    exec .tsx s = .next { s with x := s.sp, p := withZN s.p s.sp, pc := s.pc + 1, cycles := 2 } ∧
    exec .txs s = .next { s with sp := s.x, pc := s.pc + 1, cycles := 2 }

/-- The seven flag instructions: one flag set or cleared, PC at `npc`, exactly 2 cycles, nothing else (48_flags R180 to
R187). Which flag each names is the spec's decision D30 (log 4). -/
def Obligations.FlagInstructionResult : Prop :=
  ∀ s : State, ∀ i p, (i, p) ∈
      [(Instr.clc, { s.p with c := false }), (.cld, { s.p with d := false }), (.cli, { s.p with i := false }),
       (.clv, { s.p with v := false }), (.sec, { s.p with c := true }), (.sed, { s.p with d := true }),
       (.sei, { s.p with i := true })] →
    exec i s = .next { s with p := p, pc := s.pc + 1, cycles := 2 }

/-- BRK takes its exception: push `pc0 + 2` high byte first, push P with bits 5 and 4 set and the old I, set I, and PC
is the word at `0xFFFE`; 7 cycles (49_brk_nop R190). The pushed PC and I are the spec's decision D12, the vector D5 (log
4). -/
def Obligations.BrkTakesTheException : Prop :=
  ∀ s : State,
    let ret := s.pc + 2
    let t := ((s.push (BitVec.ofNat 8 (ret.toNat / 256))).push (BitVec.ofNat 8 (ret.toNat % 256))).push (s.p.toByte ||| 0x30)
    let lo := t.memRead 0xFFFE
    let hi := lo.2.memRead 0xFFFF
    exec .brk s = .next { hi.2 with
      pc := BitVec.ofNat 16 (hi.1.toNat * 256 + lo.1.toNat), p := { s.p with i := true }, cycles := 7 }

/-- After BRK, an RTI in any state with the same SP and the same three stack bytes resumes at `pc0 + 2` with every flag
of the interrupted P but B, which is 1, and with SP as before (49_brk_nop R190, 45_jump_return R153; D11, D12, D13, log
4). -/
def Obligations.BrkThenRtiResumes : Prop :=
  ∀ (s t u : State), exec .brk s = .next t → u.sp = t.sp →
    (∀ k ∈ [s.sp, s.sp - 1, s.sp - 2], u.byteAt (stackAddr k) = t.byteAt (stackAddr k)) →
    ∃ r, exec .rti u = .next r ∧ r.pc = s.pc + 2 ∧ r.sp = s.sp ∧ r.p = { s.p with b := true } ∧ r.svcNmi = false

/-- NOP: PC at `npc`, 2 cycles, nothing else (49_brk_nop R191; the spec's decisions D1, D3, log 4). -/
def Obligations.NopOnlyAdvances : Prop :=
  ∀ s : State, exec .nop s = .next { s with pc := s.pc + 1, cycles := 2 }

-- Frames over all instructions

/-- Each of A, X, Y, SP changes only in the instructions that the spec lists as writing it (10_state R10, R12), and PC
after an instruction that is no control transfer is `pc0` plus its length modulo 65536 (10_state R11), for every form of
every instruction. -/
def Obligations.RegistersChangeOnlyByTheirWriters : Prop :=
  ∀ (i : Instr) (s t : State), exec i s = .next t →
    (i.mnemonic ∉ [.LDA, .ADC, .SBC, .AND, .ORA, .EOR, .PLA, .TXA, .TYA] → i.mode ≠ .ACCUMULATOR → t.a = s.a) ∧
    (i.mnemonic ∉ [.LDX, .TAX, .TSX, .INX, .DEX] → t.x = s.x) ∧
    (i.mnemonic ∉ [.LDY, .TAY, .INY, .DEY] → t.y = s.y) ∧
    (i.mnemonic ∉ [.PHA, .PHP, .PLA, .PLP, .JSR, .RTS, .RTI, .BRK, .TXS] → t.sp = s.sp) ∧
    (i.mnemonic ∉ [.BCC, .BCS, .BEQ, .BNE, .BMI, .BPL, .BVC, .BVS, .JMP, .JSR, .RTS, .RTI, .BRK] →
      t.pc.toNat = (s.pc.toNat + (encode i).length) % 65536)

/-- Each flag changes only in the instructions of the spec's list of its writers (10_state R18, which the spec derives
from the instruction rules), for every form of every instruction. -/
def Obligations.FlagsChangeOnlyByTheirWriters : Prop :=
  ∀ (i : Instr) (s t : State), exec i s = .next t →
    (i.mnemonic ∉ [.ADC, .SBC, .CMP, .CPX, .CPY, .ASL, .LSR, .ROL, .ROR, .CLC, .SEC, .PLP, .RTI] → t.p.c = s.p.c) ∧
    (i.mnemonic ∉ [.LDA, .LDX, .LDY, .ADC, .SBC, .AND, .ORA, .EOR, .CMP, .CPX, .CPY, .BIT, .ASL, .LSR, .ROL, .ROR, .INC, .DEC,
        .INX, .INY, .DEX, .DEY, .PLA, .TAX, .TAY, .TXA, .TYA, .TSX, .PLP, .RTI] → t.p.z = s.p.z ∧ t.p.n = s.p.n) ∧
    (i.mnemonic ∉ [.SEI, .CLI, .BRK, .PLP, .RTI] → t.p.i = s.p.i) ∧
    (i.mnemonic ∉ [.SED, .CLD, .PLP, .RTI] → t.p.d = s.p.d) ∧
    (i.mnemonic ∉ [.PLP, .RTI] → t.p.b = s.p.b) ∧
    (i.mnemonic ∉ [.ADC, .SBC, .BIT, .CLV, .PLP, .RTI] → t.p.v = s.p.v)

/-- What an instruction leaves of the rest: the NMI latch, the cycle parity, the fault record, the mapper and the OAM in
every case; the NMI enable, the DMA latch and its page unless it stores at an effective address; `SERVICING_NMI` unless
it is RTI (10_state R20, R21; 60_exceptions R204, R207, R210). -/
def Obligations.InstructionsLeaveTheController : Prop :=
  ∀ (i : Instr) (s t : State), exec i s = .next t →
    t.nmiPending = s.nmiPending ∧ t.cycOdd = s.cycOdd ∧ t.fault = s.fault ∧ t.mapper = s.mapper ∧ t.oam = s.oam ∧
    (i.mnemonic ≠ .RTI → t.svcNmi = s.svcNmi) ∧
    (i.mnemonic ∉ storeWriters ∨ i.mode = .ACCUMULATOR →
      t.nmiEn = s.nmiEn ∧ t.dmaPending = s.dmaPending ∧ t.dmaPage = s.dmaPage)

/-- Memory under the instructions that store at no effective address: every stored byte stays, but for PHA and PHP at
SP, JSR at SP and SP-1, BRK at SP, SP-1 and SP-2, all in page 1 (40_addressing_modes R85; 46_stack R160, R161;
45_jump_return R151; 49_brk_nop R190). -/
def Obligations.MemoryChangesOnlyByStores : Prop :=
  ∀ (i : Instr) (s t : State) (a : Addr), exec i s = .next t →
    (writesNoMemory i = true → t.byteAt a = s.byteAt a) ∧
    (i = .pha ∨ i = .php → s.cell a ≠ s.cell (stackAddr s.sp) → t.byteAt a = s.byteAt a) ∧
    (∀ w, i = .jsrAbs w → (∀ k ∈ [s.sp, s.sp - 1], s.cell a ≠ s.cell (stackAddr k)) → t.byteAt a = s.byteAt a) ∧
    (i = .brk → (∀ k ∈ [s.sp, s.sp - 1, s.sp - 2], s.cell a ≠ s.cell (stackAddr k)) → t.byteAt a = s.byteAt a)

/-- The cycles of every instruction are those of its `Dispatch` row: the base, one more on a page crossing where the row
is marked, and for a branch one or two more (70_reset R250 to R253). The base table is the spec's decision D4 (log 4).
-/
def Obligations.CyclesFollowTheDispatchTable : Prop :=
  ∀ (i : Instr) (s t : State) (r : Row), exec i s = .next t → dispatch i.opcode = some r →
    t.cycles = cyclesOf r (crossedOf i s) (branchOf i s).1 (branchOf i s).2

-- The sequencer

/-- A step runs the decoded instruction: where no fault, NMI or DMA comes first and the bytes at PC decode to an
instruction that uses them all, the step is that instruction's `exec` on the state after the fetch reads, with the
parity of its cycles added at the end (60_exceptions R200, R201; 30_encoding R57). A latched edge with NMI disabled is
gated first (R206). -/
def Obligations.StepRunsTheDecodedInstruction : Prop :=
  ∀ (s : State) (n : Nat) (i : Instr), RunsInstruction s →
    let fetched := fetchBytes n s.pc (s.begin.gateNmi Config.nmiDisabledPolicy)
    decode fetched.1 = .ok i [] →
      step s = match exec i fetched.2 with
        | .next t => .next { t with cycOdd := xor t.cycOdd (decide (t.cycles % 2 = 1)) }
        | .fault f => .fault f
        | .refused r => .refused r

/-- Arbitration: a halted machine answers its record; else a pending and enabled NMI is served and a pending DMA stays
pending; else a pending DMA is served; each in one step (60_exceptions R200, R214, R226). -/
def Obligations.ArbitrationOrder : Prop :=
  ∀ s : State,
    (∀ f, s.fault = some f → step s = .fault f) ∧
    (s.fault = none → s.nmiPending = true → s.nmiEn = true →
      ∃ t, step s = .next t ∧ t.nmiPending = false ∧ t.svcNmi = true ∧ t.cycles = 7 ∧
        t.dmaPending = s.dmaPending ∧ t.dmaPage = s.dmaPage ∧ t.oam = s.oam) ∧
    (s.fault = none → (s.nmiPending && s.nmiEn) = false → s.dmaPending = true →
      ∃ t, step s = .next t ∧ t.dmaPending = false ∧ t.pc = s.pc ∧ (t.cycles = 513 ∨ t.cycles = 514))

/-- NMI service: push PC high byte, PC low byte, then P with B as stored, in that order; PC is the word at `0xFFFA`; 7
cycles; every flag, I among them, and A, X, Y stay (60_exceptions R205). The vector is the spec's decision D5, that B is
pushed as stored D11 (log 4). -/
def Obligations.NmiService : Prop :=
  ∀ s : State, s.fault = none → s.nmiPending = true → s.nmiEn = true →
    let t := ((s.begin.push (BitVec.ofNat 8 (s.pc.toNat / 256))).push (BitVec.ofNat 8 (s.pc.toNat % 256))).push
      (s.p.toByte ||| 0x20)
    let lo := t.memRead 0xFFFA
    let hi := lo.2.memRead 0xFFFB
    step s = .next { hi.2 with
      pc := BitVec.ofNat 16 (hi.1.toNat * 256 + lo.1.toNat), nmiPending := false, svcNmi := true, cycles := 7
      cycOdd := !s.cycOdd }

/-- NMI service and RTI: an RTI in any state with the same SP and the same three stack bytes restores PC, every flag and
SP exactly (60_exceptions R208). -/
def Obligations.NmiThenRtiRestores : Prop :=
  ∀ (s t u : State), s.fault = none → s.nmiPending = true → s.nmiEn = true → step s = .next t → u.sp = t.sp →
    (∀ k ∈ [s.sp, s.sp - 1, s.sp - 2], u.byteAt (stackAddr k) = t.byteAt (stackAddr k)) →
    ∃ r, exec .rti u = .next r ∧ r.pc = s.pc ∧ r.sp = s.sp ∧ r.p = s.p ∧ r.svcNmi = false

/-- An NMI edge that a step finds while NMI is disabled is not served, under both policies and whatever the step does, a
fault included: the step does what it would do without the edge, and the latch after it is dropped or held by the policy
(60_exceptions R206; that the policy is open is the spec's decision D14, log 10). The statement compares two runs: that
a read of a device or an unmapped address answers the same in both is the model's choice, since equal counters give
equal free answers (log 2, DESIGN CHOICE). -/
def Obligations.DisabledNmiFollowsThePolicy : Prop :=
  ∀ (k : Params) (s : State), s.fault = none → s.nmiPending = true → s.nmiEn = false →
    s.afterStep k = { { s with nmiPending := false }.afterStep k with nmiPending := decide (k.nmiPolicy = .hold) } ∧
    ((s.afterStep k).svcNmi = true → s.svcNmi = true)

/-- OAM DMA: in one step 256 bytes go from the page to OAM cell after cell, read and written in ascending order and with
no other access; a byte stored in the page arrives unchanged; no register, flag or stored byte changes; it costs 513
cycles, or 514 when it began on an odd cycle; of the latches its own is cleared, and the NMI latch keeps an edge only
where the policy holds it and stays clear where it was clear (60_exceptions R200, R206, R211, R212). The ascending order
and the parity's origin are the spec's decision D17 (log 4), the open policy D14 (log 10); the model's own count of free
answers is not spoken of (log 2). -/
def Obligations.OamDmaCopiesThePage : Prop :=
  ∀ s : State, s.fault = none → (s.nmiPending && s.nmiEn) = false → s.dmaPending = true →
    ∃ t, step s = .next t ∧
      (∀ i : Byte, ∀ v, s.byteAt (word i s.dmaPage) = some v → t.oam.read i.toNat = v) ∧
      t.bus.reverse = (List.range 256).flatMap (fun i =>
        [.read (BitVec.ofNat 16 (s.dmaPage.toNat * 256 + i)) (t.oam.read i), .oamWrite (BitVec.ofNat 8 i) (t.oam.read i)]) ∧
      t.cycles = 513 + s.cycOdd.toNat ∧ t.cycOdd = true ∧ t.dmaPending = false ∧
      t.nmiPending = (s.nmiPending && decide (Config.nmiDisabledPolicy = .hold)) ∧
      (t.a, t.x, t.y, t.sp, t.pc, t.p, t.dmaPage, t.nmiEn, t.svcNmi, t.fault, t.mapper, t.mem) =
        (s.a, s.x, s.y, s.sp, s.pc, s.p, s.dmaPage, s.nmiEn, s.svcNmi, s.fault, s.mapper, s.mem)

/-- Faults: where `FetchAvailable` is total, a machine that is not halted faults exactly when the byte it fetches at PC
is one of the 105 unassigned ones and no NMI or DMA comes first; the fault is ILLEGAL_OPCODE with PC and the byte; the
state it leaves differs only in the record, the one fetch read, and an NMI edge the policy dropped (60_exceptions R224,
R225). The fault is the spec's decision D2, its record and what it leaves D21 (log 4). -/
def Obligations.OnlyAnIllegalOpcodeFaults : Prop :=
  ∀ (k : Params) (s left : State) (f : Fault), (∀ a, k.fetchAvailable a = true) → s.fault = none →
    (stepResult k s = .fault f left ↔
      RunsInstruction s ∧ dispatch (s.answer s.pc) = none ∧ f = .illegalOpcode s.pc (s.answer s.pc) ∧
      left = { s with
        fault := some f, bus := [.read s.pc (s.answer s.pc)]
        answers := if (s.cell s.pc).isSome then s.answers else s.answers + 1
        nmiPending := s.nmiPending && decide (k.nmiPolicy = .hold) })

/-- An instruction byte that is not available is a fault and never a filled-in value: at the opcode, and at an operand
byte of an instruction that needs it; the record has `pc0` and the opcode, 0 when it was not fetched; no register, flag
or stored byte changes, nor does the cycle parity (30_encoding R56, 60_exceptions R222, R225; the predicate and the
record are the spec's decisions D23, D21, log 4). -/
def Obligations.MissingInstructionBytesFault : Prop :=
  ∀ (k : Params) (s : State), RunsInstruction s →
    (k.fetchAvailable s.pc = false →
      ∃ left, stepResult k s = .fault (.incompleteInstruction s.pc 0x00) left ∧
        (left.a, left.x, left.y, left.sp, left.pc, left.p, left.mem, left.cycOdd, left.fault) =
          (s.a, s.x, s.y, s.sp, s.pc, s.p, s.mem, s.cycOdd, some (.incompleteInstruction s.pc 0x00))) ∧
    (∀ r, k.fetchAvailable s.pc = true → dispatch (s.answer s.pc) = some r →
      (∃ j, 1 ≤ j ∧ j < width r.mode ∧ k.fetchAvailable (s.pc + BitVec.ofNat 16 j) = false) →
      ∃ left, stepResult k s = .fault (.incompleteInstruction s.pc (s.answer s.pc)) left ∧
        (left.a, left.x, left.y, left.sp, left.pc, left.p, left.mem, left.cycOdd, left.fault) =
          (s.a, s.x, s.y, s.sp, s.pc, s.p, s.mem, s.cycOdd, some (.incompleteInstruction s.pc (s.answer s.pc))))

/-- Halted: every later step answers the same record and leaves the state as it is, an NMI edge only sets its latch, and
only Reset clears the record (60_exceptions R226, R203; D21, log 4). -/
def Obligations.HaltedUntilReset : Prop :=
  ∀ (k : Params) (s : State) (f : Fault), s.fault = some f →
    stepResult k s = .fault f s ∧
    (∀ es : List Event, Event.reset ∉ es →
      (runEvents k es s).fault = some f ∧ (runEvents k es s).pc = s.pc ∧ (runEvents k es s).mem = s.mem ∧
      runEvents k es s = { s with nmiPending := s.nmiPending || decide (Event.raiseNmi ∈ es) }) ∧
    (s.after k .reset).fault = none

/-- Every completed step returns between 2 and 514 cycles, an instruction between 2 and 7, and adds their parity to
`cyc_odd` (00_scope R5, 10_state R20, 70_reset R250, R254). -/
def Obligations.CyclesReturnedAndParity : Prop :=
  (∀ (i : Instr) (s t : State), exec i s = .next t → 2 ≤ t.cycles ∧ t.cycles ≤ 7) ∧
  (∀ s t : State, step s = .next t →
    2 ≤ t.cycles ∧ t.cycles ≤ 514 ∧ t.cycOdd = xor s.cycOdd (decide (t.cycles % 2 = 1)))

/-- `SERVICING_NMI` is left only by RTI among the steps, and by Reset; it is entered only by NMI service; an NMI edge
sets its latch and changes nothing else, in every state, halted or not (60_exceptions R203, R207; 90_conflicts C9). -/
def Obligations.OnlyRtiLeavesServicingNmi : Prop :=
  ∀ (k : Params) (s : State),
    (s.svcNmi = true → (s.afterStep k).svcNmi = false → RunsInstruction s ∧
      ∃ u, fetchInstr k (s.begin.gateNmi k.nmiPolicy) = .instr .rti u) ∧
    (s.svcNmi = false → (s.afterStep k).svcNmi = true → s.nmiPending = true ∧ s.nmiEn = true) ∧
    s.raiseNmi = { s with nmiPending := true } ∧ s.after k .raiseNmi = s.raiseNmi ∧
    s.raiseNmi.svcNmi = s.svcNmi ∧ s.doReset.svcNmi = false

/-- Reset, from every state, a halted one included: the registers, latches and record take the values of 10_state R24,
PC is the word read at `0xFFFC`, low byte first, by exactly two reads; RAM, ROM, OAM and the mapper stay (70_reset
R240). The values and the vector are the spec's decisions D5, D6, D19, D21 (log 4). That the count field is 0 afterwards
(log 8) and that the transaction list holds just the two reads (log 9) are the model's own choices of form. -/
def Obligations.ResetFromAnyState : Prop :=
  ∀ s : State, ∃ lo hi : Byte,
    lo = s.answer 0xFFFC ∧ (∀ v, s.byteAt 0xFFFD = some v → hi = v) ∧
    s.doReset = { s with
      a := 0x00, x := 0x00, y := 0x00, sp := 0xFD, pc := BitVec.ofNat 16 (hi.toNat * 256 + lo.toNat)
      p := { n := false, v := false, b := false, d := false, i := true, z := false, c := false }
      nmiPending := false, nmiEn := false, dmaPending := false, dmaPage := 0x00, svcNmi := false, cycOdd := false
      fault := none, cycles := 0, answers := s.doReset.answers
      bus := [.read 0xFFFD hi, .read 0xFFFC lo] } ∧
    s.doReset.p.toByte = 0x24

/-- The program in ROM and the mapper are beyond CORE: no event of the interface changes a byte of `0x8000`-`0xFFFF` or
the mapper (20_memory R43, R44; 70_reset R240). -/
def Obligations.NothingChangesRom : Prop :=
  ∀ (k : Params) (e : Event) (s : State) (a : Addr), 0x8000 ≤ a.toNat →
    (s.after k e).byteAt a = s.byteAt a ∧ (s.after k e).mapper = s.mapper

-- Invariants

/-- The invariant `Inv` (canonical stored bytes in existing cells, a halt only at an unassigned opcode, a cycle count in
range) holds of the machine after reset (10_state R24). The reset image is the model's choice: its empty memory (log 1)
and OAM (log 3), its mapper (log 7) and its zero count (log 8). -/
def Obligations.InvariantAtReset : Prop := Inv State.reset

/-- Every step and every event keep the invariant, from every state that has it: a step that completes, a step that
faults and leaves a halted state, an NMI edge, and Reset; and Reset gives it to every sound launch image (20_memory R38
to R44; 60_exceptions R203, R224, R225; 70_reset R240; 00_scope R5). That a halt stands only at an unassigned opcode
rests on the total `FetchAvailable` (log 11) and on the two faults that no run raises (log 14). -/
def Obligations.EveryStepKeepsTheInvariant : Prop :=
  (∀ s t : State, Inv s → step s = .next t → Inv t) ∧
  (∀ (s : State) (e : Event), Inv s → Inv (s.after Params.hardware e)) ∧
  (∀ image : State, MemorySound image → Inv image.doReset)

/-- Every state that a launch, Reset and any sequence of steps, NMI edges and resets reach has the invariant, halted
states included (10_state R25; 00_scope R3, R4). Its halt part rests on the total `FetchAvailable` (log 11) and on the
two faults that no run raises (log 14). -/
def Obligations.ReachableStatesHaveTheInvariant : Prop :=
  ∀ s : State, Reachable Params.hardware s → Inv s

-- What a read answers

/-- What `MemRead` answers at every address: where a stored byte stands (RAM and ROM alike) that byte, and the count of free
answers stays; where none stands, the next free answer, and the count advances; and a read changes nothing but that count and
the transaction list, which gains the read (20_memory R30, R43, R44, R47). The free answer and its counter are the model's form
of "a free answer of the environment" (log 2). -/
def Obligations.ReadsAnswerTheStoredByte : Prop :=
  ∀ (s : State) (a : Addr),
    (∀ v, s.byteAt a = some v → (s.memRead a).1 = v ∧ (s.memRead a).2.answers = s.answers) ∧
    (s.byteAt a = none → (s.memRead a).1 = Config.freeByte s.answers ∧ (s.memRead a).2.answers = s.answers + 1) ∧
    (s.memRead a).2 = { s with
      answers := (s.memRead a).2.answers, bus := .read a (s.memRead a).1 :: s.bus }
end

