-- ==== Sys2Proof/Laws/Bits.lean ====
section
/-! SUPPORT. Slices and concatenation undo each other. -/

namespace Sys2Proof.Machine

theorem toNat_lo8 (w : Addr) : (lo8 w).toNat = w.toNat % 256 := by
  simp [lo8]

theorem toNat_hi8 (w : Addr) : (hi8 w).toNat = w.toNat / 256 := by
  simp only [hi8, BitVec.extractLsb'_toNat, Nat.shiftRight_eq_div_pow]
  have := w.isLt
  omega

theorem toNat_word (lo hi : Byte) : (word lo hi).toNat = hi.toNat * 256 + lo.toNat := by
  simp only [word, BitVec.toNat_append]
  rw [← Nat.shiftLeft_add_eq_or_of_lt lo.isLt, Nat.shiftLeft_eq]

theorem toNat_zext16 (b : Byte) : (zext16 b).toNat = b.toNat := by
  have := b.isLt
  simp [zext16]
  omega

@[simp] theorem lo8_word (lo hi : Byte) : lo8 (word lo hi) = lo := by
  apply BitVec.eq_of_toNat_eq
  rw [toNat_lo8, toNat_word]
  omega

@[simp] theorem hi8_word (lo hi : Byte) : hi8 (word lo hi) = hi := by
  apply BitVec.eq_of_toNat_eq
  rw [toNat_hi8, toNat_word]
  omega

@[simp] theorem word_lo8_hi8 (w : Addr) : word (lo8 w) (hi8 w) = w := by
  apply BitVec.eq_of_toNat_eq
  rw [toNat_word, toNat_lo8, toNat_hi8]
  omega

end Sys2Proof.Machine
end

