-- ==== Sys2Proof/Laws/Memory.lean ====
section
/-! SUPPORT. The laws of byte storage: read after write, and that a write keeps the canonical form. -/

namespace Sys2Proof.Machine.Memory

@[simp] theorem read_nil (a : Nat) : read [] a = unlisted := rfl

theorem read_cons (k : Nat) (v : Byte) (m : Memory) (a : Nat) :
    read ((k, v) :: m) a = if k = a then v else read m a := rfl

@[simp] theorem read_erase_same (m : Memory) (a : Nat) : read (erase m a) a = unlisted := by
  induction m with
  | nil => rfl
  | cons c m ih =>
    obtain ⟨k, v⟩ := c
    by_cases h : k = a <;> simp [erase, h, ih, read_cons]

theorem read_erase_ne (m : Memory) {a b : Nat} (h : b ≠ a) : read (erase m a) b = read m b := by
  induction m with
  | nil => rfl
  | cons c m ih =>
    obtain ⟨k, v⟩ := c
    by_cases hk : k = a
    · have : k ≠ b := fun e => h (e ▸ hk)
      simp [erase, hk, ih, read_cons, Ne.symm h]
    · simp [erase, hk, ih, read_cons]

theorem read_insert_ne (m : Memory) {a b : Nat} (v : Byte) (h : b ≠ a) : read (insert m a v) b = read m b := by
  induction m with
  | nil => simp [insert, read_cons, Ne.symm h]
  | cons c m ih =>
    obtain ⟨k, w⟩ := c
    by_cases hk : a < k <;> simp [insert, hk, read_cons, Ne.symm h, ih]

/-- A key that is not listed reads the inserted byte. -/
theorem read_insert_same (m : Memory) (a : Nat) (v : Byte) (h : ∀ c ∈ m, c.1 ≠ a) : read (insert m a v) a = v := by
  induction m with
  | nil => simp [insert, read_cons]
  | cons c m ih =>
    obtain ⟨k, w⟩ := c
    have hk : k ≠ a := h (k, w) (List.mem_cons_self ..)
    by_cases hlt : a < k
    · simp [insert, hlt, read_cons]
    · simp [insert, hlt, read_cons, hk, ih fun c hc => h c (List.mem_cons_of_mem _ hc)]

theorem mem_erase {m : Memory} {a : Nat} {c : Host.Cell} : c ∈ erase m a ↔ c ∈ m ∧ c.1 ≠ a := by
  induction m with
  | nil => simp [erase]
  | cons d m ih =>
    obtain ⟨k, v⟩ := d
    by_cases h : k = a
    · simp only [erase, h, if_true, ih, List.mem_cons]
      constructor
      · exact fun hc => ⟨.inr hc.1, hc.2⟩
      · rintro ⟨rfl | hc, hne⟩
        · exact absurd rfl hne
        · exact ⟨hc, hne⟩
    · simp only [erase, h, if_false, List.mem_cons, ih]
      constructor
      · rintro (rfl | hc)
        · exact ⟨.inl rfl, h⟩
        · exact ⟨.inr hc.1, hc.2⟩
      · rintro ⟨rfl | hc, hne⟩
        · exact .inl rfl
        · exact .inr ⟨hc, hne⟩

theorem mem_insert {m : Memory} {a : Nat} {v : Byte} {c : Host.Cell} : c ∈ insert m a v ↔ c = (a, v) ∨ c ∈ m := by
  induction m with
  | nil => simp [insert]
  | cons d m ih =>
    obtain ⟨k, w⟩ := d
    by_cases h : a < k
    · simp [insert, h]
    · simp only [insert, h, if_false, List.mem_cons, ih]
      tauto

/-- A cell of the memory after a write is the written one or an earlier one. -/
theorem mem_write {m : Memory} {a : Nat} {v : Byte} {c : Host.Cell} (h : c ∈ write m a v) : c = (a, v) ∨ c ∈ m := by
  unfold write at h
  split at h
  · exact .inr (mem_erase.mp h).1
  · rcases mem_insert.mp h with h | h
    · exact .inl h
    · exact .inr (mem_erase.mp h).1

/-- Read after write to the same cell. -/
@[simp] theorem read_write_same (m : Memory) (a : Nat) (v : Byte) : read (write m a v) a = v := by
  unfold write
  split
  · next h => simp [h]
  · exact read_insert_same _ _ _ fun c hc => (mem_erase.mp hc).2

/-- A write leaves every other cell. -/
theorem read_write_ne (m : Memory) {a b : Nat} (v : Byte) (h : b ≠ a) : read (write m a v) b = read m b := by
  unfold write
  split
  · exact read_erase_ne m h
  · rw [read_insert_ne _ _ h, read_erase_ne m h]

theorem wf_cons {k : Nat} {v : Byte} {m : Memory} :
    wf ((k, v) :: m) = true ↔ v ≠ unlisted ∧ (∀ c ∈ m, k < c.1) ∧ wf m = true := by
  simp [wf, and_assoc]

theorem wf_erase {m : Memory} (a : Nat) (h : wf m = true) : wf (erase m a) = true := by
  induction m with
  | nil => rfl
  | cons c m ih =>
    obtain ⟨k, v⟩ := c
    obtain ⟨hv, hk, hm⟩ := wf_cons.mp h
    by_cases e : k = a
    · simpa [erase, e] using ih hm
    · simp only [erase, e, if_false]
      exact wf_cons.mpr ⟨hv, fun c hc => hk c (mem_erase.mp hc).1, ih hm⟩

theorem wf_insert {m : Memory} {a : Nat} {v : Byte} (hv : v ≠ unlisted) (ha : ∀ c ∈ m, c.1 ≠ a) (h : wf m = true) :
    wf (insert m a v) = true := by
  induction m with
  | nil => exact wf_cons.mpr ⟨hv, by simp, rfl⟩
  | cons c m ih =>
    obtain ⟨k, w⟩ := c
    obtain ⟨hw, hk, hm⟩ := wf_cons.mp h
    have hka : k ≠ a := ha (k, w) (List.mem_cons_self ..)
    by_cases e : a < k
    · simp only [insert, e, if_true]
      refine wf_cons.mpr ⟨hv, ?_, h⟩
      intro c hc
      rcases List.mem_cons.mp hc with rfl | hc
      · exact e
      · exact e.trans (hk c hc)
    · simp only [insert, e, if_false]
      refine wf_cons.mpr ⟨hw, ?_, ih (fun c hc => ha c (List.mem_cons_of_mem _ hc)) hm⟩
      intro c hc
      rcases mem_insert.mp hc with rfl | hc
      · show k < a
        omega
      · exact hk c hc

/-- A write keeps the canonical form. -/
theorem wf_write {m : Memory} (a : Nat) (v : Byte) (h : wf m = true) : wf (write m a v) = true := by
  unfold write
  split
  · exact wf_erase a h
  · next hv => exact wf_insert hv (fun c hc => (mem_erase.mp hc).2) (wf_erase a h)

end Sys2Proof.Machine.Memory
end

