-- ==== Sys2Proof/Laws/State.lean ====
section
/-! SUPPORT. One lemma per field per primitive update of the state. -/

namespace Sys2Proof.Machine.State

@[simp] theorem advance_a (s : State) (len : Nat) : (s.advance len).a = s.a := rfl
@[simp] theorem advance_x (s : State) (len : Nat) : (s.advance len).x = s.x := rfl
@[simp] theorem advance_y (s : State) (len : Nat) : (s.advance len).y = s.y := rfl
@[simp] theorem advance_sp (s : State) (len : Nat) : (s.advance len).sp = s.sp := rfl
@[simp] theorem advance_pc (s : State) (len : Nat) : (s.advance len).pc = s.pc + BitVec.ofNat 16 len := rfl
@[simp] theorem advance_p (s : State) (len : Nat) : (s.advance len).p = s.p := rfl
@[simp] theorem advance_nmiPending (s : State) (len : Nat) : (s.advance len).nmiPending = s.nmiPending := rfl
@[simp] theorem advance_nmiEn (s : State) (len : Nat) : (s.advance len).nmiEn = s.nmiEn := rfl
@[simp] theorem advance_dmaPending (s : State) (len : Nat) : (s.advance len).dmaPending = s.dmaPending := rfl
@[simp] theorem advance_dmaPage (s : State) (len : Nat) : (s.advance len).dmaPage = s.dmaPage := rfl
@[simp] theorem advance_svcNmi (s : State) (len : Nat) : (s.advance len).svcNmi = s.svcNmi := rfl
@[simp] theorem advance_cycOdd (s : State) (len : Nat) : (s.advance len).cycOdd = s.cycOdd := rfl
@[simp] theorem advance_fault (s : State) (len : Nat) : (s.advance len).fault = s.fault := rfl
@[simp] theorem advance_mapper (s : State) (len : Nat) : (s.advance len).mapper = s.mapper := rfl
@[simp] theorem advance_mem (s : State) (len : Nat) : (s.advance len).mem = s.mem := rfl
@[simp] theorem advance_oam (s : State) (len : Nat) : (s.advance len).oam = s.oam := rfl
@[simp] theorem advance_answers (s : State) (len : Nat) : (s.advance len).answers = s.answers := rfl
@[simp] theorem advance_cycles (s : State) (len : Nat) : (s.advance len).cycles = s.cycles := rfl
@[simp] theorem advance_bus (s : State) (len : Nat) : (s.advance len).bus = s.bus := rfl

@[simp] theorem charge_a (s : State) (n : Nat) : (s.charge n).a = s.a := rfl
@[simp] theorem charge_x (s : State) (n : Nat) : (s.charge n).x = s.x := rfl
@[simp] theorem charge_y (s : State) (n : Nat) : (s.charge n).y = s.y := rfl
@[simp] theorem charge_sp (s : State) (n : Nat) : (s.charge n).sp = s.sp := rfl
@[simp] theorem charge_pc (s : State) (n : Nat) : (s.charge n).pc = s.pc := rfl
@[simp] theorem charge_p (s : State) (n : Nat) : (s.charge n).p = s.p := rfl
@[simp] theorem charge_nmiPending (s : State) (n : Nat) : (s.charge n).nmiPending = s.nmiPending := rfl
@[simp] theorem charge_nmiEn (s : State) (n : Nat) : (s.charge n).nmiEn = s.nmiEn := rfl
@[simp] theorem charge_dmaPending (s : State) (n : Nat) : (s.charge n).dmaPending = s.dmaPending := rfl
@[simp] theorem charge_dmaPage (s : State) (n : Nat) : (s.charge n).dmaPage = s.dmaPage := rfl
@[simp] theorem charge_svcNmi (s : State) (n : Nat) : (s.charge n).svcNmi = s.svcNmi := rfl
@[simp] theorem charge_cycOdd (s : State) (n : Nat) : (s.charge n).cycOdd = s.cycOdd := rfl
@[simp] theorem charge_fault (s : State) (n : Nat) : (s.charge n).fault = s.fault := rfl
@[simp] theorem charge_mapper (s : State) (n : Nat) : (s.charge n).mapper = s.mapper := rfl
@[simp] theorem charge_mem (s : State) (n : Nat) : (s.charge n).mem = s.mem := rfl
@[simp] theorem charge_oam (s : State) (n : Nat) : (s.charge n).oam = s.oam := rfl
@[simp] theorem charge_answers (s : State) (n : Nat) : (s.charge n).answers = s.answers := rfl
@[simp] theorem charge_cycles (s : State) (n : Nat) : (s.charge n).cycles = n := rfl
@[simp] theorem charge_bus (s : State) (n : Nat) : (s.charge n).bus = s.bus := rfl

@[simp] theorem afterRead_a (s : State) (addr : Addr) : (s.afterRead addr).a = s.a := rfl
@[simp] theorem afterRead_x (s : State) (addr : Addr) : (s.afterRead addr).x = s.x := rfl
@[simp] theorem afterRead_y (s : State) (addr : Addr) : (s.afterRead addr).y = s.y := rfl
@[simp] theorem afterRead_sp (s : State) (addr : Addr) : (s.afterRead addr).sp = s.sp := rfl
@[simp] theorem afterRead_pc (s : State) (addr : Addr) : (s.afterRead addr).pc = s.pc := rfl
@[simp] theorem afterRead_p (s : State) (addr : Addr) : (s.afterRead addr).p = s.p := rfl
@[simp] theorem afterRead_nmiPending (s : State) (addr : Addr) : (s.afterRead addr).nmiPending = s.nmiPending := rfl
@[simp] theorem afterRead_nmiEn (s : State) (addr : Addr) : (s.afterRead addr).nmiEn = s.nmiEn := rfl
@[simp] theorem afterRead_dmaPending (s : State) (addr : Addr) : (s.afterRead addr).dmaPending = s.dmaPending := rfl
@[simp] theorem afterRead_dmaPage (s : State) (addr : Addr) : (s.afterRead addr).dmaPage = s.dmaPage := rfl
@[simp] theorem afterRead_svcNmi (s : State) (addr : Addr) : (s.afterRead addr).svcNmi = s.svcNmi := rfl
@[simp] theorem afterRead_cycOdd (s : State) (addr : Addr) : (s.afterRead addr).cycOdd = s.cycOdd := rfl
@[simp] theorem afterRead_fault (s : State) (addr : Addr) : (s.afterRead addr).fault = s.fault := rfl
@[simp] theorem afterRead_mapper (s : State) (addr : Addr) : (s.afterRead addr).mapper = s.mapper := rfl
@[simp] theorem afterRead_mem (s : State) (addr : Addr) : (s.afterRead addr).mem = s.mem := rfl
@[simp] theorem afterRead_oam (s : State) (addr : Addr) : (s.afterRead addr).oam = s.oam := rfl
@[simp] theorem afterRead_answers (s : State) (addr : Addr) :
    (s.afterRead addr).answers = if (s.cell addr).isSome then s.answers else s.answers + 1 := rfl
@[simp] theorem afterRead_cycles (s : State) (addr : Addr) : (s.afterRead addr).cycles = s.cycles := rfl
@[simp] theorem afterRead_bus (s : State) (addr : Addr) :
    (s.afterRead addr).bus = .read addr (s.answer addr) :: s.bus := rfl

@[simp] theorem busWrite_mem_ram (s : State) (addr : Addr) (v : Byte) {c : Nat} (h : s.mapper.backing addr = .ram c) :
    (s.busWrite addr v).mem = s.mem.write c v := by simp only [busWrite, h]
@[simp] theorem busWrite_a (s : State) (addr : Addr) (v : Byte) : (s.busWrite addr v).a = s.a := rfl
@[simp] theorem busWrite_x (s : State) (addr : Addr) (v : Byte) : (s.busWrite addr v).x = s.x := rfl
@[simp] theorem busWrite_y (s : State) (addr : Addr) (v : Byte) : (s.busWrite addr v).y = s.y := rfl
@[simp] theorem busWrite_sp (s : State) (addr : Addr) (v : Byte) : (s.busWrite addr v).sp = s.sp := rfl
@[simp] theorem busWrite_pc (s : State) (addr : Addr) (v : Byte) : (s.busWrite addr v).pc = s.pc := rfl
@[simp] theorem busWrite_p (s : State) (addr : Addr) (v : Byte) : (s.busWrite addr v).p = s.p := rfl
@[simp] theorem busWrite_nmiPending (s : State) (addr : Addr) (v : Byte) :
    (s.busWrite addr v).nmiPending = s.nmiPending := rfl
@[simp] theorem busWrite_nmiEn (s : State) (addr : Addr) (v : Byte) : (s.busWrite addr v).nmiEn = s.nmiEn := rfl
@[simp] theorem busWrite_dmaPending (s : State) (addr : Addr) (v : Byte) :
    (s.busWrite addr v).dmaPending = s.dmaPending := rfl
@[simp] theorem busWrite_dmaPage (s : State) (addr : Addr) (v : Byte) : (s.busWrite addr v).dmaPage = s.dmaPage := rfl
@[simp] theorem busWrite_svcNmi (s : State) (addr : Addr) (v : Byte) : (s.busWrite addr v).svcNmi = s.svcNmi := rfl
@[simp] theorem busWrite_cycOdd (s : State) (addr : Addr) (v : Byte) : (s.busWrite addr v).cycOdd = s.cycOdd := rfl
@[simp] theorem busWrite_fault (s : State) (addr : Addr) (v : Byte) : (s.busWrite addr v).fault = s.fault := rfl
@[simp] theorem busWrite_mapper (s : State) (addr : Addr) (v : Byte) : (s.busWrite addr v).mapper = s.mapper := rfl
@[simp] theorem busWrite_oam (s : State) (addr : Addr) (v : Byte) : (s.busWrite addr v).oam = s.oam := rfl
@[simp] theorem busWrite_answers (s : State) (addr : Addr) (v : Byte) : (s.busWrite addr v).answers = s.answers := rfl
@[simp] theorem busWrite_cycles (s : State) (addr : Addr) (v : Byte) : (s.busWrite addr v).cycles = s.cycles := rfl
@[simp] theorem busWrite_bus (s : State) (addr : Addr) (v : Byte) :
    (s.busWrite addr v).bus = .write addr v :: s.bus := rfl

@[simp] theorem snoop_a (s : State) (addr : Addr) (v : Byte) : (s.snoop addr v).a = s.a := rfl
@[simp] theorem snoop_x (s : State) (addr : Addr) (v : Byte) : (s.snoop addr v).x = s.x := rfl
@[simp] theorem snoop_y (s : State) (addr : Addr) (v : Byte) : (s.snoop addr v).y = s.y := rfl
@[simp] theorem snoop_sp (s : State) (addr : Addr) (v : Byte) : (s.snoop addr v).sp = s.sp := rfl
@[simp] theorem snoop_pc (s : State) (addr : Addr) (v : Byte) : (s.snoop addr v).pc = s.pc := rfl
@[simp] theorem snoop_p (s : State) (addr : Addr) (v : Byte) : (s.snoop addr v).p = s.p := rfl
@[simp] theorem snoop_nmiPending (s : State) (addr : Addr) (v : Byte) :
    (s.snoop addr v).nmiPending = s.nmiPending := rfl
@[simp] theorem snoop_nmiEn (s : State) (addr : Addr) (v : Byte) :
    (s.snoop addr v).nmiEn = if isCtrlAddr addr then v.getLsbD 7 else s.nmiEn := rfl
@[simp] theorem snoop_dmaPending (s : State) (addr : Addr) (v : Byte) :
    (s.snoop addr v).dmaPending = if addr = Config.dmaTriggerAddr then true else s.dmaPending := rfl
@[simp] theorem snoop_dmaPage (s : State) (addr : Addr) (v : Byte) :
    (s.snoop addr v).dmaPage = if addr = Config.dmaTriggerAddr then v else s.dmaPage := rfl
@[simp] theorem snoop_svcNmi (s : State) (addr : Addr) (v : Byte) : (s.snoop addr v).svcNmi = s.svcNmi := rfl
@[simp] theorem snoop_cycOdd (s : State) (addr : Addr) (v : Byte) : (s.snoop addr v).cycOdd = s.cycOdd := rfl
@[simp] theorem snoop_fault (s : State) (addr : Addr) (v : Byte) : (s.snoop addr v).fault = s.fault := rfl
@[simp] theorem snoop_mapper (s : State) (addr : Addr) (v : Byte) : (s.snoop addr v).mapper = s.mapper := rfl
@[simp] theorem snoop_mem (s : State) (addr : Addr) (v : Byte) : (s.snoop addr v).mem = s.mem := rfl
@[simp] theorem snoop_oam (s : State) (addr : Addr) (v : Byte) : (s.snoop addr v).oam = s.oam := rfl
@[simp] theorem snoop_answers (s : State) (addr : Addr) (v : Byte) : (s.snoop addr v).answers = s.answers := rfl
@[simp] theorem snoop_cycles (s : State) (addr : Addr) (v : Byte) : (s.snoop addr v).cycles = s.cycles := rfl
@[simp] theorem snoop_bus (s : State) (addr : Addr) (v : Byte) : (s.snoop addr v).bus = s.bus := rfl

@[simp] theorem memWrite_a (s : State) (addr : Addr) (v : Byte) : (s.memWrite addr v).a = s.a := rfl
@[simp] theorem memWrite_x (s : State) (addr : Addr) (v : Byte) : (s.memWrite addr v).x = s.x := rfl
@[simp] theorem memWrite_y (s : State) (addr : Addr) (v : Byte) : (s.memWrite addr v).y = s.y := rfl
@[simp] theorem memWrite_sp (s : State) (addr : Addr) (v : Byte) : (s.memWrite addr v).sp = s.sp := rfl
@[simp] theorem memWrite_pc (s : State) (addr : Addr) (v : Byte) : (s.memWrite addr v).pc = s.pc := rfl
@[simp] theorem memWrite_p (s : State) (addr : Addr) (v : Byte) : (s.memWrite addr v).p = s.p := rfl
@[simp] theorem memWrite_nmiPending (s : State) (addr : Addr) (v : Byte) :
    (s.memWrite addr v).nmiPending = s.nmiPending := rfl
@[simp] theorem memWrite_nmiEn (s : State) (addr : Addr) (v : Byte) :
    (s.memWrite addr v).nmiEn = if isCtrlAddr addr then v.getLsbD 7 else s.nmiEn := rfl
@[simp] theorem memWrite_dmaPending (s : State) (addr : Addr) (v : Byte) :
    (s.memWrite addr v).dmaPending = if addr = Config.dmaTriggerAddr then true else s.dmaPending := rfl
@[simp] theorem memWrite_dmaPage (s : State) (addr : Addr) (v : Byte) :
    (s.memWrite addr v).dmaPage = if addr = Config.dmaTriggerAddr then v else s.dmaPage := rfl
@[simp] theorem memWrite_svcNmi (s : State) (addr : Addr) (v : Byte) : (s.memWrite addr v).svcNmi = s.svcNmi := rfl
@[simp] theorem memWrite_cycOdd (s : State) (addr : Addr) (v : Byte) : (s.memWrite addr v).cycOdd = s.cycOdd := rfl
@[simp] theorem memWrite_fault (s : State) (addr : Addr) (v : Byte) : (s.memWrite addr v).fault = s.fault := rfl
@[simp] theorem memWrite_mapper (s : State) (addr : Addr) (v : Byte) : (s.memWrite addr v).mapper = s.mapper := rfl
@[simp] theorem memWrite_oam (s : State) (addr : Addr) (v : Byte) : (s.memWrite addr v).oam = s.oam := rfl
@[simp] theorem memWrite_answers (s : State) (addr : Addr) (v : Byte) : (s.memWrite addr v).answers = s.answers := rfl
@[simp] theorem memWrite_cycles (s : State) (addr : Addr) (v : Byte) : (s.memWrite addr v).cycles = s.cycles := rfl
@[simp] theorem memWrite_bus (s : State) (addr : Addr) (v : Byte) :
    (s.memWrite addr v).bus = .write addr v :: s.bus := rfl

@[simp] theorem oamWrite_a (s : State) (i v : Byte) : (s.oamWrite i v).a = s.a := rfl
@[simp] theorem oamWrite_x (s : State) (i v : Byte) : (s.oamWrite i v).x = s.x := rfl
@[simp] theorem oamWrite_y (s : State) (i v : Byte) : (s.oamWrite i v).y = s.y := rfl
@[simp] theorem oamWrite_sp (s : State) (i v : Byte) : (s.oamWrite i v).sp = s.sp := rfl
@[simp] theorem oamWrite_pc (s : State) (i v : Byte) : (s.oamWrite i v).pc = s.pc := rfl
@[simp] theorem oamWrite_p (s : State) (i v : Byte) : (s.oamWrite i v).p = s.p := rfl
@[simp] theorem oamWrite_nmiPending (s : State) (i v : Byte) : (s.oamWrite i v).nmiPending = s.nmiPending := rfl
@[simp] theorem oamWrite_nmiEn (s : State) (i v : Byte) : (s.oamWrite i v).nmiEn = s.nmiEn := rfl
@[simp] theorem oamWrite_dmaPending (s : State) (i v : Byte) : (s.oamWrite i v).dmaPending = s.dmaPending := rfl
@[simp] theorem oamWrite_dmaPage (s : State) (i v : Byte) : (s.oamWrite i v).dmaPage = s.dmaPage := rfl
@[simp] theorem oamWrite_svcNmi (s : State) (i v : Byte) : (s.oamWrite i v).svcNmi = s.svcNmi := rfl
@[simp] theorem oamWrite_cycOdd (s : State) (i v : Byte) : (s.oamWrite i v).cycOdd = s.cycOdd := rfl
@[simp] theorem oamWrite_fault (s : State) (i v : Byte) : (s.oamWrite i v).fault = s.fault := rfl
@[simp] theorem oamWrite_mapper (s : State) (i v : Byte) : (s.oamWrite i v).mapper = s.mapper := rfl
@[simp] theorem oamWrite_mem (s : State) (i v : Byte) : (s.oamWrite i v).mem = s.mem := rfl
@[simp] theorem oamWrite_oam (s : State) (i v : Byte) : (s.oamWrite i v).oam = s.oam.write i.toNat v := rfl
@[simp] theorem oamWrite_answers (s : State) (i v : Byte) : (s.oamWrite i v).answers = s.answers := rfl
@[simp] theorem oamWrite_cycles (s : State) (i v : Byte) : (s.oamWrite i v).cycles = s.cycles := rfl
@[simp] theorem oamWrite_bus (s : State) (i v : Byte) : (s.oamWrite i v).bus = .oamWrite i v :: s.bus := rfl

@[simp] theorem raiseNmi_a (s : State) : (s.raiseNmi).a = s.a := rfl
@[simp] theorem raiseNmi_x (s : State) : (s.raiseNmi).x = s.x := rfl
@[simp] theorem raiseNmi_y (s : State) : (s.raiseNmi).y = s.y := rfl
@[simp] theorem raiseNmi_sp (s : State) : (s.raiseNmi).sp = s.sp := rfl
@[simp] theorem raiseNmi_pc (s : State) : (s.raiseNmi).pc = s.pc := rfl
@[simp] theorem raiseNmi_p (s : State) : (s.raiseNmi).p = s.p := rfl
@[simp] theorem raiseNmi_nmiPending (s : State) : (s.raiseNmi).nmiPending = true := rfl
@[simp] theorem raiseNmi_nmiEn (s : State) : (s.raiseNmi).nmiEn = s.nmiEn := rfl
@[simp] theorem raiseNmi_dmaPending (s : State) : (s.raiseNmi).dmaPending = s.dmaPending := rfl
@[simp] theorem raiseNmi_dmaPage (s : State) : (s.raiseNmi).dmaPage = s.dmaPage := rfl
@[simp] theorem raiseNmi_svcNmi (s : State) : (s.raiseNmi).svcNmi = s.svcNmi := rfl
@[simp] theorem raiseNmi_cycOdd (s : State) : (s.raiseNmi).cycOdd = s.cycOdd := rfl
@[simp] theorem raiseNmi_fault (s : State) : (s.raiseNmi).fault = s.fault := rfl
@[simp] theorem raiseNmi_mapper (s : State) : (s.raiseNmi).mapper = s.mapper := rfl
@[simp] theorem raiseNmi_mem (s : State) : (s.raiseNmi).mem = s.mem := rfl
@[simp] theorem raiseNmi_oam (s : State) : (s.raiseNmi).oam = s.oam := rfl
@[simp] theorem raiseNmi_answers (s : State) : (s.raiseNmi).answers = s.answers := rfl
@[simp] theorem raiseNmi_cycles (s : State) : (s.raiseNmi).cycles = s.cycles := rfl
@[simp] theorem raiseNmi_bus (s : State) : (s.raiseNmi).bus = s.bus := rfl

@[simp] theorem account_a (s : State) : (s.account).a = s.a := rfl
@[simp] theorem account_x (s : State) : (s.account).x = s.x := rfl
@[simp] theorem account_y (s : State) : (s.account).y = s.y := rfl
@[simp] theorem account_sp (s : State) : (s.account).sp = s.sp := rfl
@[simp] theorem account_pc (s : State) : (s.account).pc = s.pc := rfl
@[simp] theorem account_p (s : State) : (s.account).p = s.p := rfl
@[simp] theorem account_nmiPending (s : State) : (s.account).nmiPending = s.nmiPending := rfl
@[simp] theorem account_nmiEn (s : State) : (s.account).nmiEn = s.nmiEn := rfl
@[simp] theorem account_dmaPending (s : State) : (s.account).dmaPending = s.dmaPending := rfl
@[simp] theorem account_dmaPage (s : State) : (s.account).dmaPage = s.dmaPage := rfl
@[simp] theorem account_svcNmi (s : State) : (s.account).svcNmi = s.svcNmi := rfl
@[simp] theorem account_cycOdd (s : State) : (s.account).cycOdd = (s.cycOdd ^^ oddCount s.cycles) := rfl
@[simp] theorem account_fault (s : State) : (s.account).fault = s.fault := rfl
@[simp] theorem account_mapper (s : State) : (s.account).mapper = s.mapper := rfl
@[simp] theorem account_mem (s : State) : (s.account).mem = s.mem := rfl
@[simp] theorem account_oam (s : State) : (s.account).oam = s.oam := rfl
@[simp] theorem account_answers (s : State) : (s.account).answers = s.answers := rfl
@[simp] theorem account_cycles (s : State) : (s.account).cycles = s.cycles := rfl
@[simp] theorem account_bus (s : State) : (s.account).bus = s.bus := rfl

@[simp] theorem begin_a (s : State) : (s.begin).a = s.a := rfl
@[simp] theorem begin_x (s : State) : (s.begin).x = s.x := rfl
@[simp] theorem begin_y (s : State) : (s.begin).y = s.y := rfl
@[simp] theorem begin_sp (s : State) : (s.begin).sp = s.sp := rfl
@[simp] theorem begin_pc (s : State) : (s.begin).pc = s.pc := rfl
@[simp] theorem begin_p (s : State) : (s.begin).p = s.p := rfl
@[simp] theorem begin_nmiPending (s : State) : (s.begin).nmiPending = s.nmiPending := rfl
@[simp] theorem begin_nmiEn (s : State) : (s.begin).nmiEn = s.nmiEn := rfl
@[simp] theorem begin_dmaPending (s : State) : (s.begin).dmaPending = s.dmaPending := rfl
@[simp] theorem begin_dmaPage (s : State) : (s.begin).dmaPage = s.dmaPage := rfl
@[simp] theorem begin_svcNmi (s : State) : (s.begin).svcNmi = s.svcNmi := rfl
@[simp] theorem begin_cycOdd (s : State) : (s.begin).cycOdd = s.cycOdd := rfl
@[simp] theorem begin_fault (s : State) : (s.begin).fault = s.fault := rfl
@[simp] theorem begin_mapper (s : State) : (s.begin).mapper = s.mapper := rfl
@[simp] theorem begin_mem (s : State) : (s.begin).mem = s.mem := rfl
@[simp] theorem begin_oam (s : State) : (s.begin).oam = s.oam := rfl
@[simp] theorem begin_answers (s : State) : (s.begin).answers = s.answers := rfl
@[simp] theorem begin_cycles (s : State) : (s.begin).cycles = s.cycles := rfl
@[simp] theorem begin_bus (s : State) : (s.begin).bus = [] := rfl

@[simp] theorem halt_a (s : State) (f : Fault) : (s.halt f).a = s.a := rfl
@[simp] theorem halt_x (s : State) (f : Fault) : (s.halt f).x = s.x := rfl
@[simp] theorem halt_y (s : State) (f : Fault) : (s.halt f).y = s.y := rfl
@[simp] theorem halt_sp (s : State) (f : Fault) : (s.halt f).sp = s.sp := rfl
@[simp] theorem halt_pc (s : State) (f : Fault) : (s.halt f).pc = s.pc := rfl
@[simp] theorem halt_p (s : State) (f : Fault) : (s.halt f).p = s.p := rfl
@[simp] theorem halt_nmiPending (s : State) (f : Fault) : (s.halt f).nmiPending = s.nmiPending := rfl
@[simp] theorem halt_nmiEn (s : State) (f : Fault) : (s.halt f).nmiEn = s.nmiEn := rfl
@[simp] theorem halt_dmaPending (s : State) (f : Fault) : (s.halt f).dmaPending = s.dmaPending := rfl
@[simp] theorem halt_dmaPage (s : State) (f : Fault) : (s.halt f).dmaPage = s.dmaPage := rfl
@[simp] theorem halt_svcNmi (s : State) (f : Fault) : (s.halt f).svcNmi = s.svcNmi := rfl
@[simp] theorem halt_cycOdd (s : State) (f : Fault) : (s.halt f).cycOdd = s.cycOdd := rfl
@[simp] theorem halt_fault (s : State) (f : Fault) : (s.halt f).fault = some f := rfl
@[simp] theorem halt_mapper (s : State) (f : Fault) : (s.halt f).mapper = s.mapper := rfl
@[simp] theorem halt_mem (s : State) (f : Fault) : (s.halt f).mem = s.mem := rfl
@[simp] theorem halt_oam (s : State) (f : Fault) : (s.halt f).oam = s.oam := rfl
@[simp] theorem halt_answers (s : State) (f : Fault) : (s.halt f).answers = s.answers := rfl
@[simp] theorem halt_cycles (s : State) (f : Fault) : (s.halt f).cycles = s.cycles := rfl
@[simp] theorem halt_bus (s : State) (f : Fault) : (s.halt f).bus = s.bus := rfl

theorem memWrite_mem (s : State) (addr : Addr) (v : Byte) : (s.memWrite addr v).mem = (s.busWrite addr v).mem := rfl

@[simp] theorem push_sp (s : State) (v : Byte) : (s.push v).sp = s.sp - 1 := rfl
@[simp] theorem pull_value (s : State) : s.pull.1 = s.answer (stackAddr (s.sp + 1)) := rfl
@[simp] theorem pull_sp (s : State) : s.pull.2.sp = s.sp + 1 := rfl
@[simp] theorem push_a (s : State) (v : Byte) : (s.push v).a = s.a := rfl
@[simp] theorem push_x (s : State) (v : Byte) : (s.push v).x = s.x := rfl
@[simp] theorem push_y (s : State) (v : Byte) : (s.push v).y = s.y := rfl
@[simp] theorem push_pc (s : State) (v : Byte) : (s.push v).pc = s.pc := rfl
@[simp] theorem push_p (s : State) (v : Byte) : (s.push v).p = s.p := rfl
@[simp] theorem push_nmiPending (s : State) (v : Byte) : (s.push v).nmiPending = s.nmiPending := rfl
@[simp] theorem push_svcNmi (s : State) (v : Byte) : (s.push v).svcNmi = s.svcNmi := rfl
@[simp] theorem push_cycOdd (s : State) (v : Byte) : (s.push v).cycOdd = s.cycOdd := rfl
@[simp] theorem push_fault (s : State) (v : Byte) : (s.push v).fault = s.fault := rfl
@[simp] theorem push_mapper (s : State) (v : Byte) : (s.push v).mapper = s.mapper := rfl
@[simp] theorem push_oam (s : State) (v : Byte) : (s.push v).oam = s.oam := rfl
@[simp] theorem push_answers (s : State) (v : Byte) : (s.push v).answers = s.answers := rfl
@[simp] theorem push_cycles (s : State) (v : Byte) : (s.push v).cycles = s.cycles := rfl
@[simp] theorem pull_a (s : State) : s.pull.2.a = s.a := rfl
@[simp] theorem pull_x (s : State) : s.pull.2.x = s.x := rfl
@[simp] theorem pull_y (s : State) : s.pull.2.y = s.y := rfl
@[simp] theorem pull_pc (s : State) : s.pull.2.pc = s.pc := rfl
@[simp] theorem pull_p (s : State) : s.pull.2.p = s.p := rfl
@[simp] theorem pull_nmiPending (s : State) : s.pull.2.nmiPending = s.nmiPending := rfl
@[simp] theorem pull_nmiEn (s : State) : s.pull.2.nmiEn = s.nmiEn := rfl
@[simp] theorem pull_dmaPending (s : State) : s.pull.2.dmaPending = s.dmaPending := rfl
@[simp] theorem pull_dmaPage (s : State) : s.pull.2.dmaPage = s.dmaPage := rfl
@[simp] theorem pull_svcNmi (s : State) : s.pull.2.svcNmi = s.svcNmi := rfl
@[simp] theorem pull_cycOdd (s : State) : s.pull.2.cycOdd = s.cycOdd := rfl
@[simp] theorem pull_fault (s : State) : s.pull.2.fault = s.fault := rfl
@[simp] theorem pull_mapper (s : State) : s.pull.2.mapper = s.mapper := rfl
@[simp] theorem pull_mem (s : State) : s.pull.2.mem = s.mem := rfl
@[simp] theorem pull_oam (s : State) : s.pull.2.oam = s.oam := rfl
@[simp] theorem pull_cycles (s : State) : s.pull.2.cycles = s.cycles := rfl

end Sys2Proof.Machine.State
end

