-- ==== Sys2Proof/Laws/Ops.lean ====
section
/-! SUPPORT. What the shared operations over bus, stack and memory do, once each. -/

namespace Sys2Proof.Machine

/-- The cells of the address map are physical ones (20_memory R40, R43). -/
theorem physicalCell_of_cell {m : Mapper} {addr : Addr} {c : Nat} (h : (m.backing addr).cell = some c) :
    physicalCell c = true := by
  have := addr.isLt
  simp only [Mapper.backing] at h
  split_ifs at h with h1 h2 h3 h4 <;> simp only [Backing.cell, Option.some.injEq, reduceCtorEq] at h
  · subst h
    simp only [physicalCell, decide_eq_true_eq]
    omega
  · cases m <;> simp only [Mapper.prgBacking, Option.some.injEq, reduceCtorEq] at h <;> subst h <;>
      simp only [physicalCell, decide_eq_true_eq] <;> omega

/-- Page 1 is internal RAM under every mapper (20_memory R40). -/
theorem backing_stackAddr (m : Mapper) (sp : Byte) : m.backing (stackAddr sp) = .ram (0x0100 + sp.toNat) := by
  have hsp := sp.isLt
  have hn : (stackAddr sp).toNat = 0x0100 + sp.toNat := by
    rw [stackAddr, toNat_word]
    rfl
  have hlt : (stackAddr sp).toNat < 0x2000 := by omega
  unfold Mapper.backing
  rw [if_pos hlt, hn, Nat.mod_eq_of_lt (by omega)]

namespace State

/-- A stored cell answers its byte; any other address answers a free value. -/
theorem answer_of_cell {s : State} {addr : Addr} {c : Nat} (h : s.cell addr = some c) :
    s.answer addr = s.mem.read c := by
  simp [answer, byteAt, h]

theorem answer_of_no_cell {s : State} {addr : Addr} (h : s.cell addr = none) :
    s.answer addr = Config.freeByte s.answers := by
  simp [answer, byteAt, h]

/-- A read of a stored byte changes nothing but the transaction list. -/
theorem afterRead_of_cell {s : State} {addr : Addr} {c : Nat} (h : s.cell addr = some c) :
    s.afterRead addr = { s with bus := .read addr (s.mem.read c) :: s.bus } := by
  simp [afterRead, h, answer_of_cell h]

/-- No read changes a stored byte. -/
@[simp] theorem byteAt_afterRead (s : State) (addr a : Addr) : (s.afterRead addr).byteAt a = s.byteAt a := rfl

/-- A write to RAM reads back at every alias of its cell (20_memory R40). -/
theorem byteAt_memWrite_alias {s : State} {addr a : Addr} {c : Nat} (v : Byte)
    (h : s.mapper.backing addr = .ram c) (ha : s.cell a = some c) : (s.memWrite addr v).byteAt a = some v := by
  have hm : (s.memWrite addr v).mem = s.mem.write c v := by rw [memWrite_mem, busWrite_mem_ram s addr v h]
  have hc : (s.memWrite addr v).cell a = some c := ha
  simp [byteAt, hm, hc]

/-- A write leaves every stored byte whose cell is another one (20_memory R40, R44). -/
theorem byteAt_memWrite_ne {s : State} {addr a : Addr} (v : Byte) (h : s.cell a ≠ s.cell addr) :
    (s.memWrite addr v).byteAt a = s.byteAt a := by
  have hc : (s.memWrite addr v).cell a = s.cell a := rfl
  rw [byteAt, byteAt, hc, memWrite_mem]
  cases hb : s.mapper.backing addr with
  | ram c =>
    rw [busWrite_mem_ram s addr v hb]
    cases hca : s.cell a with
    | none => rfl
    | some d =>
      have hd : d ≠ c := by
        rintro rfl
        exact h (by rw [hca, cell, hb]; rfl)
      simp [Memory.read_write_ne s.mem v hd]
  | _ => simp only [busWrite, hb]

/-- A write keeps the stored bytes canonical and in their cells. -/
theorem memorySound_memWrite {s : State} (addr : Addr) (v : Byte) (h : MemorySound s) :
    MemorySound (s.memWrite addr v) := by
  obtain ⟨h1, h2, h3, h4⟩ := h
  cases hb : s.mapper.backing addr with
  | ram c =>
    have hm : (s.memWrite addr v).mem = s.mem.write c v := by rw [memWrite_mem, busWrite_mem_ram s addr v hb]
    refine ⟨hm ▸ Memory.wf_write c v h1, ?_, h3, h4⟩
    intro d hd
    rcases Memory.mem_write (hm ▸ hd) with rfl | hd
    · exact physicalCell_of_cell (m := s.mapper) (addr := addr) (by rw [hb]; rfl)
    · exact h2 d hd
  | _ =>
    have hm : (s.memWrite addr v).mem = s.mem := by
      rw [memWrite_mem]
      simp only [busWrite, hb]
    exact ⟨by rw [hm]; exact h1, by rw [hm]; exact h2, h3, h4⟩

/-- An OAM write keeps the stored bytes canonical and in their cells. -/
theorem memorySound_oamWrite {s : State} (i v : Byte) (h : MemorySound s) : MemorySound (s.oamWrite i v) := by
  obtain ⟨h1, h2, h3, h4⟩ := h
  refine ⟨h1, h2, Memory.wf_write i.toNat v h3, ?_⟩
  intro d hd
  rcases Memory.mem_write hd with rfl | hd
  · exact i.isLt
  · exact h4 d hd

/-- A read keeps the stored bytes canonical and in their cells. -/
theorem memorySound_afterRead {s : State} (addr : Addr) (h : MemorySound s) : MemorySound (s.afterRead addr) :=
  ⟨h.1, h.2, h.3, h.4⟩

/-- A push writes one RAM cell of page 1. -/
theorem push_mem (s : State) (v : Byte) : (s.push v).mem = s.mem.write (0x0100 + s.sp.toNat) v := by
  have h := backing_stackAddr s.mapper s.sp
  show (s.memWrite (stackAddr s.sp) v).mem = _
  rw [memWrite_mem, busWrite_mem_ram s _ v h]

theorem stackAddr_not_trigger (sp : Byte) : stackAddr sp ≠ Config.dmaTriggerAddr := by
  intro h
  have hn := congrArg BitVec.toNat h
  rw [stackAddr, toNat_word] at hn
  have := sp.isLt
  simp [Config.stackPage] at hn
  omega

theorem stackAddr_not_ctrl (sp : Byte) : isCtrlAddr (stackAddr sp) = false := by
  have hn : (stackAddr sp).toNat = 0x0100 + sp.toNat := by
    rw [stackAddr, toNat_word]
    rfl
  have := sp.isLt
  simp only [isCtrlAddr, hn, decide_eq_false_iff_not]
  omega

/-- Pushes never match a snoop (20_memory R31). -/
@[simp] theorem push_dmaPending (s : State) (v : Byte) : (s.push v).dmaPending = s.dmaPending := by
  show (s.memWrite (stackAddr s.sp) v).dmaPending = _
  rw [memWrite_dmaPending, if_neg (stackAddr_not_trigger s.sp)]

@[simp] theorem push_dmaPage (s : State) (v : Byte) : (s.push v).dmaPage = s.dmaPage := by
  show (s.memWrite (stackAddr s.sp) v).dmaPage = _
  rw [memWrite_dmaPage, if_neg (stackAddr_not_trigger s.sp)]

@[simp] theorem push_nmiEn (s : State) (v : Byte) : (s.push v).nmiEn = s.nmiEn := by
  show (s.memWrite (stackAddr s.sp) v).nmiEn = _
  rw [memWrite_nmiEn, stackAddr_not_ctrl]
  rfl

end State

end Sys2Proof.Machine
end

