-- ==== Sys2Proof/Laws/Exec.lean ====
section
/-! SUPPORT. One inversion lemma per operand class and per stage of the sequencer: everything it can answer. -/

namespace Sys2Proof.Machine

theorem readClass_next {effect : Byte → State → State} {src : Source} {base : Nat} {pen : Bool} {s t : State}
    (h : readClass effect src base pen s = .next t) :
    ∃ f, f = readSource src (s.advance (width src.mode)) ∧
      t = (effect f.value f.state).charge (base + penalty pen f.crossed) := by
  simp only [readClass, Host.Outcome.next.injEq] at h
  exact ⟨_, rfl, h.symm⟩

theorem writeClass_next {value : State → Byte} {m : EaMode} {base : Nat} {s t : State}
    (h : writeClass value m base s = .next t) :
    ∃ r, r = resolve m (s.advance (width m.mode)) ∧ t = (r.state.memWrite r.ea (value s)).charge base := by
  simp only [writeClass, Host.Outcome.next.injEq] at h
  exact ⟨_, rfl, h.symm⟩

theorem rmwClass_next {op : Byte → Status → Byte × Status} {m : EaMode} {base : Nat} {s t : State}
    (h : rmwClass op m base s = .next t) :
    ∃ r out, r = resolve m (s.advance (width m.mode)) ∧ out = op (r.state.answer r.ea) s.p ∧
      t = { (r.state.afterRead r.ea).memWrite r.ea out.1 with p := out.2, cycles := base } := by
  simp only [rmwClass, Host.Outcome.next.injEq] at h
  exact ⟨_, _, rfl, rfl, h.symm⟩

theorem implicitClass_next {effect : State → State} {base : Nat} {s t : State}
    (h : implicitClass effect base s = .next t) : t = (effect (s.advance 1)).charge base := by
  simp only [implicitClass, Host.Outcome.next.injEq] at h
  exact h.symm

/-- What a resolution does to the state: reads only, none, one pointer, and nothing else. -/
theorem resolve_state (m : EaMode) (s : State) :
    (resolve m s).state = s ∨ ∃ ptr, (resolve m s).state = (s.readPointer ptr).2 := by
  cases m with
  | ind w => exact .inr ⟨w, rfl⟩
  | izx b => exact .inr ⟨zext16 (b + s.x), rfl⟩
  | izy b => exact .inr ⟨zext16 b, rfl⟩
  | _ => exact .inl rfl

/-- The two transactions of a pointer read. -/
theorem readPointer_state (s : State) (ptr : Addr) :
    (s.readPointer ptr).2 = (s.afterRead ptr).afterRead (word (lo8 ptr + 1) (hi8 ptr)) := rfl

/-- The row an opcode selects is one of the 151 and carries that opcode. -/
theorem dispatch_some {op : Byte} {r : Row} (h : dispatch op = some r) : r ∈ dispatchRows ∧ r.opcode = op := by
  refine ⟨List.mem_of_find?_eq_some h, ?_⟩
  simpa using List.find?_some h

/-- Every entry of the constant table has a legal pair (30_encoding R62; 60_exceptions R221). -/
theorem dispatchRows_legal : dispatchRows.all (fun r => legalPair r.mnemonic r.mode) = true := by decide

theorem legalPair_of_dispatch {op : Byte} {r : Row} (h : dispatch op = some r) : legalPair r.mnemonic r.mode = true :=
  List.all_eq_true.mp dispatchRows_legal r (dispatch_some h).1

/-- Where every byte is available, fetching stops only at an unassigned opcode byte (60_exceptions R224). -/
theorem fetchInstr_stop {k : Params} (hk : ∀ a, k.fetchAvailable a = true) {s t : State} {f : Fault}
    (h : fetchInstr k s = .stop f t) :
    dispatch (s.answer s.pc) = none ∧ f = .illegalOpcode s.pc (s.answer s.pc) ∧ t = s.afterRead s.pc := by
  simp only [fetchInstr, hk, if_true, State.memRead] at h
  cases hd : dispatch (s.answer s.pc) with
  | none =>
    simp only [hd, FetchResult.stop.injEq] at h
    exact ⟨rfl, h.1.symm, h.2.symm⟩
  | some r =>
    simp only [hd, legalPair_of_dispatch hd, if_true, fetchOperands, hk] at h
    split at h <;> simp at h

/-- What a call of `Step()` can come to, case by case in the order of arbitration (60_exceptions R200). -/
theorem stepResult_cases (k : Params) (s : State) :
    (∃ f, s.fault = some f ∧ stepResult k s = .fault f s) ∨
    (s.fault = none ∧ s.nmiPending = true ∧ s.nmiEn = true ∧ stepResult k s = .next s.begin.serviceNmi.account) ∨
    (s.fault = none ∧ (s.nmiPending && s.nmiEn) = false ∧ s.dmaPending = true ∧
      stepResult k s = .next (s.begin.gateNmi k.nmiPolicy).serviceDma.account) ∨
    (s.fault = none ∧ (s.nmiPending && s.nmiEn) = false ∧ s.dmaPending = false ∧
      stepResult k s = executeInstruction k (s.begin.gateNmi k.nmiPolicy)) := by
  have hd : (s.begin.gateNmi k.nmiPolicy).dmaPending = s.dmaPending := by
    unfold State.gateNmi
    split <;> rfl
  cases hf : s.fault with
  | some f => exact .inl ⟨f, rfl, by simp only [stepResult, hf]⟩
  | none =>
    cases hn : (s.nmiPending && s.nmiEn) with
    | true =>
      have h := Bool.and_eq_true_iff.mp hn
      exact .inr (.inl ⟨rfl, h.1, h.2, by simp only [stepResult, hf, hn, if_true]⟩)
    | false =>
      cases hp : s.dmaPending with
      | true =>
        exact .inr (.inr (.inl ⟨rfl, rfl, rfl, by simp [stepResult, hf, hn, hd, hp]⟩))
      | false =>
        exact .inr (.inr (.inr ⟨rfl, rfl, rfl, by simp [stepResult, hf, hn, hd, hp]⟩))

end Sys2Proof.Machine
end

