-- ==== Sys2Proof/Laws/PerInstr.lean ====
section
/-! SUPPORT. The family `RowOf` of statements made per instruction: each constructor is well formed, and the row that its opcode
byte selects has its mnemonic and mode and builds it from its operand bytes (30_encoding R53, R55, R58, R59, R62). -/

namespace Sys2Proof.Laws.RowOf

open Sys2Proof.Machine (lo8 hi8)

/-- `b1` and `b2` of an operand, zero where the form has none. -/
def operandBytes : OperandField → Byte × Byte
  | .absent => (0, 0)
  | .u8 b => (b, 0)
  | .u16 w => (lo8 w, hi8 w)

/-- The row selected by a constructor's opcode agrees with the constructor. -/
def Statement (i : Instr) : Prop :=
  i.wf = true ∧
  (dispatch i.opcode).map (fun r => (r.mnemonic, r.mode)) = some (i.mnemonic, i.mode) ∧
  (encode i).length = width i.mode ∧
  (dispatch i.opcode).map (fun r => r.make (operandBytes i.descriptor.operand).1 (operandBytes i.descriptor.operand).2) =
    some i

/-- Joining the two bytes of a 16-bit operand gives it back. -/
theorem word_bytes (w : Addr) : Sys2Proof.Machine.word (lo8 w) (hi8 w) = w := by
  apply BitVec.eq_of_toNat_eq
  have := w.isLt
  simp only [Sys2Proof.Machine.word, lo8, hi8, BitVec.toNat_append, BitVec.extractLsb'_toNat, Nat.shiftRight_eq_div_pow]
  rw [← Nat.shiftLeft_add_eq_or_of_lt (Nat.mod_lt _ (by decide)), Nat.shiftLeft_eq]
  omega


theorem ldaImm (v : Byte) : Statement (.ldaImm v) := ⟨rfl, rfl, rfl, rfl⟩
theorem ldaZp (b : Byte) : Statement (.ldaZp b) := ⟨rfl, rfl, rfl, rfl⟩
theorem ldaZpx (b : Byte) : Statement (.ldaZpx b) := ⟨rfl, rfl, rfl, rfl⟩
theorem ldaAbs (w : Addr) : Statement (.ldaAbs w) := ⟨rfl, rfl, rfl, congrArg (fun u => some (Instr.ldaAbs u)) (word_bytes w)⟩
theorem ldaAbx (w : Addr) : Statement (.ldaAbx w) := ⟨rfl, rfl, rfl, congrArg (fun u => some (Instr.ldaAbx u)) (word_bytes w)⟩
theorem ldaAby (w : Addr) : Statement (.ldaAby w) := ⟨rfl, rfl, rfl, congrArg (fun u => some (Instr.ldaAby u)) (word_bytes w)⟩
theorem ldaIzx (b : Byte) : Statement (.ldaIzx b) := ⟨rfl, rfl, rfl, rfl⟩
theorem ldaIzy (b : Byte) : Statement (.ldaIzy b) := ⟨rfl, rfl, rfl, rfl⟩
theorem ldxImm (v : Byte) : Statement (.ldxImm v) := ⟨rfl, rfl, rfl, rfl⟩
theorem ldxZp (b : Byte) : Statement (.ldxZp b) := ⟨rfl, rfl, rfl, rfl⟩
theorem ldxZpy (b : Byte) : Statement (.ldxZpy b) := ⟨rfl, rfl, rfl, rfl⟩
theorem ldxAbs (w : Addr) : Statement (.ldxAbs w) := ⟨rfl, rfl, rfl, congrArg (fun u => some (Instr.ldxAbs u)) (word_bytes w)⟩
theorem ldxAby (w : Addr) : Statement (.ldxAby w) := ⟨rfl, rfl, rfl, congrArg (fun u => some (Instr.ldxAby u)) (word_bytes w)⟩
theorem ldyImm (v : Byte) : Statement (.ldyImm v) := ⟨rfl, rfl, rfl, rfl⟩
theorem ldyZp (b : Byte) : Statement (.ldyZp b) := ⟨rfl, rfl, rfl, rfl⟩
theorem ldyZpx (b : Byte) : Statement (.ldyZpx b) := ⟨rfl, rfl, rfl, rfl⟩
theorem ldyAbs (w : Addr) : Statement (.ldyAbs w) := ⟨rfl, rfl, rfl, congrArg (fun u => some (Instr.ldyAbs u)) (word_bytes w)⟩
theorem ldyAbx (w : Addr) : Statement (.ldyAbx w) := ⟨rfl, rfl, rfl, congrArg (fun u => some (Instr.ldyAbx u)) (word_bytes w)⟩
theorem adcImm (v : Byte) : Statement (.adcImm v) := ⟨rfl, rfl, rfl, rfl⟩
theorem adcZp (b : Byte) : Statement (.adcZp b) := ⟨rfl, rfl, rfl, rfl⟩
theorem adcZpx (b : Byte) : Statement (.adcZpx b) := ⟨rfl, rfl, rfl, rfl⟩
theorem adcAbs (w : Addr) : Statement (.adcAbs w) := ⟨rfl, rfl, rfl, congrArg (fun u => some (Instr.adcAbs u)) (word_bytes w)⟩
theorem adcAbx (w : Addr) : Statement (.adcAbx w) := ⟨rfl, rfl, rfl, congrArg (fun u => some (Instr.adcAbx u)) (word_bytes w)⟩
theorem adcAby (w : Addr) : Statement (.adcAby w) := ⟨rfl, rfl, rfl, congrArg (fun u => some (Instr.adcAby u)) (word_bytes w)⟩
theorem adcIzx (b : Byte) : Statement (.adcIzx b) := ⟨rfl, rfl, rfl, rfl⟩
theorem adcIzy (b : Byte) : Statement (.adcIzy b) := ⟨rfl, rfl, rfl, rfl⟩
theorem sbcImm (v : Byte) : Statement (.sbcImm v) := ⟨rfl, rfl, rfl, rfl⟩
theorem sbcZp (b : Byte) : Statement (.sbcZp b) := ⟨rfl, rfl, rfl, rfl⟩
theorem sbcZpx (b : Byte) : Statement (.sbcZpx b) := ⟨rfl, rfl, rfl, rfl⟩
theorem sbcAbs (w : Addr) : Statement (.sbcAbs w) := ⟨rfl, rfl, rfl, congrArg (fun u => some (Instr.sbcAbs u)) (word_bytes w)⟩
theorem sbcAbx (w : Addr) : Statement (.sbcAbx w) := ⟨rfl, rfl, rfl, congrArg (fun u => some (Instr.sbcAbx u)) (word_bytes w)⟩
theorem sbcAby (w : Addr) : Statement (.sbcAby w) := ⟨rfl, rfl, rfl, congrArg (fun u => some (Instr.sbcAby u)) (word_bytes w)⟩
theorem sbcIzx (b : Byte) : Statement (.sbcIzx b) := ⟨rfl, rfl, rfl, rfl⟩
theorem sbcIzy (b : Byte) : Statement (.sbcIzy b) := ⟨rfl, rfl, rfl, rfl⟩
theorem andImm (v : Byte) : Statement (.andImm v) := ⟨rfl, rfl, rfl, rfl⟩
theorem andZp (b : Byte) : Statement (.andZp b) := ⟨rfl, rfl, rfl, rfl⟩
theorem andZpx (b : Byte) : Statement (.andZpx b) := ⟨rfl, rfl, rfl, rfl⟩
theorem andAbs (w : Addr) : Statement (.andAbs w) := ⟨rfl, rfl, rfl, congrArg (fun u => some (Instr.andAbs u)) (word_bytes w)⟩
theorem andAbx (w : Addr) : Statement (.andAbx w) := ⟨rfl, rfl, rfl, congrArg (fun u => some (Instr.andAbx u)) (word_bytes w)⟩
theorem andAby (w : Addr) : Statement (.andAby w) := ⟨rfl, rfl, rfl, congrArg (fun u => some (Instr.andAby u)) (word_bytes w)⟩
theorem andIzx (b : Byte) : Statement (.andIzx b) := ⟨rfl, rfl, rfl, rfl⟩
theorem andIzy (b : Byte) : Statement (.andIzy b) := ⟨rfl, rfl, rfl, rfl⟩
theorem oraImm (v : Byte) : Statement (.oraImm v) := ⟨rfl, rfl, rfl, rfl⟩
theorem oraZp (b : Byte) : Statement (.oraZp b) := ⟨rfl, rfl, rfl, rfl⟩
theorem oraZpx (b : Byte) : Statement (.oraZpx b) := ⟨rfl, rfl, rfl, rfl⟩
theorem oraAbs (w : Addr) : Statement (.oraAbs w) := ⟨rfl, rfl, rfl, congrArg (fun u => some (Instr.oraAbs u)) (word_bytes w)⟩
theorem oraAbx (w : Addr) : Statement (.oraAbx w) := ⟨rfl, rfl, rfl, congrArg (fun u => some (Instr.oraAbx u)) (word_bytes w)⟩
theorem oraAby (w : Addr) : Statement (.oraAby w) := ⟨rfl, rfl, rfl, congrArg (fun u => some (Instr.oraAby u)) (word_bytes w)⟩
theorem oraIzx (b : Byte) : Statement (.oraIzx b) := ⟨rfl, rfl, rfl, rfl⟩
theorem oraIzy (b : Byte) : Statement (.oraIzy b) := ⟨rfl, rfl, rfl, rfl⟩
theorem eorImm (v : Byte) : Statement (.eorImm v) := ⟨rfl, rfl, rfl, rfl⟩
theorem eorZp (b : Byte) : Statement (.eorZp b) := ⟨rfl, rfl, rfl, rfl⟩
theorem eorZpx (b : Byte) : Statement (.eorZpx b) := ⟨rfl, rfl, rfl, rfl⟩
theorem eorAbs (w : Addr) : Statement (.eorAbs w) := ⟨rfl, rfl, rfl, congrArg (fun u => some (Instr.eorAbs u)) (word_bytes w)⟩
theorem eorAbx (w : Addr) : Statement (.eorAbx w) := ⟨rfl, rfl, rfl, congrArg (fun u => some (Instr.eorAbx u)) (word_bytes w)⟩
theorem eorAby (w : Addr) : Statement (.eorAby w) := ⟨rfl, rfl, rfl, congrArg (fun u => some (Instr.eorAby u)) (word_bytes w)⟩
theorem eorIzx (b : Byte) : Statement (.eorIzx b) := ⟨rfl, rfl, rfl, rfl⟩
theorem eorIzy (b : Byte) : Statement (.eorIzy b) := ⟨rfl, rfl, rfl, rfl⟩
theorem cmpImm (v : Byte) : Statement (.cmpImm v) := ⟨rfl, rfl, rfl, rfl⟩
theorem cmpZp (b : Byte) : Statement (.cmpZp b) := ⟨rfl, rfl, rfl, rfl⟩
theorem cmpZpx (b : Byte) : Statement (.cmpZpx b) := ⟨rfl, rfl, rfl, rfl⟩
theorem cmpAbs (w : Addr) : Statement (.cmpAbs w) := ⟨rfl, rfl, rfl, congrArg (fun u => some (Instr.cmpAbs u)) (word_bytes w)⟩
theorem cmpAbx (w : Addr) : Statement (.cmpAbx w) := ⟨rfl, rfl, rfl, congrArg (fun u => some (Instr.cmpAbx u)) (word_bytes w)⟩
theorem cmpAby (w : Addr) : Statement (.cmpAby w) := ⟨rfl, rfl, rfl, congrArg (fun u => some (Instr.cmpAby u)) (word_bytes w)⟩
theorem cmpIzx (b : Byte) : Statement (.cmpIzx b) := ⟨rfl, rfl, rfl, rfl⟩
theorem cmpIzy (b : Byte) : Statement (.cmpIzy b) := ⟨rfl, rfl, rfl, rfl⟩
theorem cpxImm (v : Byte) : Statement (.cpxImm v) := ⟨rfl, rfl, rfl, rfl⟩
theorem cpxZp (b : Byte) : Statement (.cpxZp b) := ⟨rfl, rfl, rfl, rfl⟩
theorem cpxAbs (w : Addr) : Statement (.cpxAbs w) := ⟨rfl, rfl, rfl, congrArg (fun u => some (Instr.cpxAbs u)) (word_bytes w)⟩
theorem cpyImm (v : Byte) : Statement (.cpyImm v) := ⟨rfl, rfl, rfl, rfl⟩
theorem cpyZp (b : Byte) : Statement (.cpyZp b) := ⟨rfl, rfl, rfl, rfl⟩
theorem cpyAbs (w : Addr) : Statement (.cpyAbs w) := ⟨rfl, rfl, rfl, congrArg (fun u => some (Instr.cpyAbs u)) (word_bytes w)⟩
theorem bitZp (b : Byte) : Statement (.bitZp b) := ⟨rfl, rfl, rfl, rfl⟩
theorem bitAbs (w : Addr) : Statement (.bitAbs w) := ⟨rfl, rfl, rfl, congrArg (fun u => some (Instr.bitAbs u)) (word_bytes w)⟩
theorem aslAcc : Statement .aslAcc := ⟨rfl, rfl, rfl, rfl⟩
theorem aslZp (b : Byte) : Statement (.aslZp b) := ⟨rfl, rfl, rfl, rfl⟩
theorem aslZpx (b : Byte) : Statement (.aslZpx b) := ⟨rfl, rfl, rfl, rfl⟩
theorem aslAbs (w : Addr) : Statement (.aslAbs w) := ⟨rfl, rfl, rfl, congrArg (fun u => some (Instr.aslAbs u)) (word_bytes w)⟩
theorem aslAbx (w : Addr) : Statement (.aslAbx w) := ⟨rfl, rfl, rfl, congrArg (fun u => some (Instr.aslAbx u)) (word_bytes w)⟩
theorem lsrAcc : Statement .lsrAcc := ⟨rfl, rfl, rfl, rfl⟩
theorem lsrZp (b : Byte) : Statement (.lsrZp b) := ⟨rfl, rfl, rfl, rfl⟩
theorem lsrZpx (b : Byte) : Statement (.lsrZpx b) := ⟨rfl, rfl, rfl, rfl⟩
theorem lsrAbs (w : Addr) : Statement (.lsrAbs w) := ⟨rfl, rfl, rfl, congrArg (fun u => some (Instr.lsrAbs u)) (word_bytes w)⟩
theorem lsrAbx (w : Addr) : Statement (.lsrAbx w) := ⟨rfl, rfl, rfl, congrArg (fun u => some (Instr.lsrAbx u)) (word_bytes w)⟩
theorem rolAcc : Statement .rolAcc := ⟨rfl, rfl, rfl, rfl⟩
theorem rolZp (b : Byte) : Statement (.rolZp b) := ⟨rfl, rfl, rfl, rfl⟩
theorem rolZpx (b : Byte) : Statement (.rolZpx b) := ⟨rfl, rfl, rfl, rfl⟩
theorem rolAbs (w : Addr) : Statement (.rolAbs w) := ⟨rfl, rfl, rfl, congrArg (fun u => some (Instr.rolAbs u)) (word_bytes w)⟩
theorem rolAbx (w : Addr) : Statement (.rolAbx w) := ⟨rfl, rfl, rfl, congrArg (fun u => some (Instr.rolAbx u)) (word_bytes w)⟩
theorem rorAcc : Statement .rorAcc := ⟨rfl, rfl, rfl, rfl⟩
theorem rorZp (b : Byte) : Statement (.rorZp b) := ⟨rfl, rfl, rfl, rfl⟩
theorem rorZpx (b : Byte) : Statement (.rorZpx b) := ⟨rfl, rfl, rfl, rfl⟩
theorem rorAbs (w : Addr) : Statement (.rorAbs w) := ⟨rfl, rfl, rfl, congrArg (fun u => some (Instr.rorAbs u)) (word_bytes w)⟩
theorem rorAbx (w : Addr) : Statement (.rorAbx w) := ⟨rfl, rfl, rfl, congrArg (fun u => some (Instr.rorAbx u)) (word_bytes w)⟩
theorem incZp (b : Byte) : Statement (.incZp b) := ⟨rfl, rfl, rfl, rfl⟩
theorem incZpx (b : Byte) : Statement (.incZpx b) := ⟨rfl, rfl, rfl, rfl⟩
theorem incAbs (w : Addr) : Statement (.incAbs w) := ⟨rfl, rfl, rfl, congrArg (fun u => some (Instr.incAbs u)) (word_bytes w)⟩
theorem incAbx (w : Addr) : Statement (.incAbx w) := ⟨rfl, rfl, rfl, congrArg (fun u => some (Instr.incAbx u)) (word_bytes w)⟩
theorem decZp (b : Byte) : Statement (.decZp b) := ⟨rfl, rfl, rfl, rfl⟩
theorem decZpx (b : Byte) : Statement (.decZpx b) := ⟨rfl, rfl, rfl, rfl⟩
theorem decAbs (w : Addr) : Statement (.decAbs w) := ⟨rfl, rfl, rfl, congrArg (fun u => some (Instr.decAbs u)) (word_bytes w)⟩
theorem decAbx (w : Addr) : Statement (.decAbx w) := ⟨rfl, rfl, rfl, congrArg (fun u => some (Instr.decAbx u)) (word_bytes w)⟩
theorem inx : Statement .inx := ⟨rfl, rfl, rfl, rfl⟩
theorem iny : Statement .iny := ⟨rfl, rfl, rfl, rfl⟩
theorem dex : Statement .dex := ⟨rfl, rfl, rfl, rfl⟩
theorem dey : Statement .dey := ⟨rfl, rfl, rfl, rfl⟩
theorem staZp (b : Byte) : Statement (.staZp b) := ⟨rfl, rfl, rfl, rfl⟩
theorem staZpx (b : Byte) : Statement (.staZpx b) := ⟨rfl, rfl, rfl, rfl⟩
theorem staAbs (w : Addr) : Statement (.staAbs w) := ⟨rfl, rfl, rfl, congrArg (fun u => some (Instr.staAbs u)) (word_bytes w)⟩
theorem staAbx (w : Addr) : Statement (.staAbx w) := ⟨rfl, rfl, rfl, congrArg (fun u => some (Instr.staAbx u)) (word_bytes w)⟩
theorem staAby (w : Addr) : Statement (.staAby w) := ⟨rfl, rfl, rfl, congrArg (fun u => some (Instr.staAby u)) (word_bytes w)⟩
theorem staIzx (b : Byte) : Statement (.staIzx b) := ⟨rfl, rfl, rfl, rfl⟩
theorem staIzy (b : Byte) : Statement (.staIzy b) := ⟨rfl, rfl, rfl, rfl⟩
theorem stxZp (b : Byte) : Statement (.stxZp b) := ⟨rfl, rfl, rfl, rfl⟩
theorem stxZpy (b : Byte) : Statement (.stxZpy b) := ⟨rfl, rfl, rfl, rfl⟩
theorem stxAbs (w : Addr) : Statement (.stxAbs w) := ⟨rfl, rfl, rfl, congrArg (fun u => some (Instr.stxAbs u)) (word_bytes w)⟩
theorem styZp (b : Byte) : Statement (.styZp b) := ⟨rfl, rfl, rfl, rfl⟩
theorem styZpx (b : Byte) : Statement (.styZpx b) := ⟨rfl, rfl, rfl, rfl⟩
theorem styAbs (w : Addr) : Statement (.styAbs w) := ⟨rfl, rfl, rfl, congrArg (fun u => some (Instr.styAbs u)) (word_bytes w)⟩
theorem bccRel (b : Byte) : Statement (.bccRel b) := ⟨rfl, rfl, rfl, rfl⟩
theorem bcsRel (b : Byte) : Statement (.bcsRel b) := ⟨rfl, rfl, rfl, rfl⟩
theorem beqRel (b : Byte) : Statement (.beqRel b) := ⟨rfl, rfl, rfl, rfl⟩
theorem bneRel (b : Byte) : Statement (.bneRel b) := ⟨rfl, rfl, rfl, rfl⟩
theorem bmiRel (b : Byte) : Statement (.bmiRel b) := ⟨rfl, rfl, rfl, rfl⟩
theorem bplRel (b : Byte) : Statement (.bplRel b) := ⟨rfl, rfl, rfl, rfl⟩
theorem bvcRel (b : Byte) : Statement (.bvcRel b) := ⟨rfl, rfl, rfl, rfl⟩
theorem bvsRel (b : Byte) : Statement (.bvsRel b) := ⟨rfl, rfl, rfl, rfl⟩
theorem jmpAbs (w : Addr) : Statement (.jmpAbs w) := ⟨rfl, rfl, rfl, congrArg (fun u => some (Instr.jmpAbs u)) (word_bytes w)⟩
theorem jmpInd (w : Addr) : Statement (.jmpInd w) := ⟨rfl, rfl, rfl, congrArg (fun u => some (Instr.jmpInd u)) (word_bytes w)⟩
theorem jsrAbs (w : Addr) : Statement (.jsrAbs w) := ⟨rfl, rfl, rfl, congrArg (fun u => some (Instr.jsrAbs u)) (word_bytes w)⟩
theorem rts : Statement .rts := ⟨rfl, rfl, rfl, rfl⟩
theorem rti : Statement .rti := ⟨rfl, rfl, rfl, rfl⟩
theorem pha : Statement .pha := ⟨rfl, rfl, rfl, rfl⟩
theorem php : Statement .php := ⟨rfl, rfl, rfl, rfl⟩
theorem pla : Statement .pla := ⟨rfl, rfl, rfl, rfl⟩
theorem plp : Statement .plp := ⟨rfl, rfl, rfl, rfl⟩
theorem tax : Statement .tax := ⟨rfl, rfl, rfl, rfl⟩
theorem tay : Statement .tay := ⟨rfl, rfl, rfl, rfl⟩
theorem txa : Statement .txa := ⟨rfl, rfl, rfl, rfl⟩
theorem tya : Statement .tya := ⟨rfl, rfl, rfl, rfl⟩
theorem tsx : Statement .tsx := ⟨rfl, rfl, rfl, rfl⟩
theorem txs : Statement .txs := ⟨rfl, rfl, rfl, rfl⟩
theorem clc : Statement .clc := ⟨rfl, rfl, rfl, rfl⟩
theorem cld : Statement .cld := ⟨rfl, rfl, rfl, rfl⟩
theorem cli : Statement .cli := ⟨rfl, rfl, rfl, rfl⟩
theorem clv : Statement .clv := ⟨rfl, rfl, rfl, rfl⟩
theorem sec : Statement .sec := ⟨rfl, rfl, rfl, rfl⟩
theorem sed : Statement .sed := ⟨rfl, rfl, rfl, rfl⟩
theorem sei : Statement .sei := ⟨rfl, rfl, rfl, rfl⟩
theorem brk : Statement .brk := ⟨rfl, rfl, rfl, rfl⟩
theorem nop : Statement .nop := ⟨rfl, rfl, rfl, rfl⟩

end Sys2Proof.Laws.RowOf
end

