-- ==== Sys2Proof/Laws/Sequencer.lean ====
section
/-! SUPPORT. What each stage of a step leaves: taking an exception, the DMA, the NMI gate, a completed fetch. -/

namespace Sys2Proof.Machine

/-- Taking an exception leaves every register but SP, PC and P, and every latch but those its `Entry.mark` names. -/
theorem State.enter_frame (s : State) (e : Entry) (ret : Addr) :
    (s.enter e ret).a = s.a ∧ (s.enter e ret).x = s.x ∧ (s.enter e ret).y = s.y ∧ (s.enter e ret).sp = s.sp - 1 - 1 - 1 ∧
    (s.enter e ret).nmiEn = s.nmiEn ∧ (s.enter e ret).dmaPending = s.dmaPending ∧ (s.enter e ret).dmaPage = s.dmaPage ∧
    (s.enter e ret).cycOdd = s.cycOdd ∧ (s.enter e ret).fault = s.fault ∧ (s.enter e ret).mapper = s.mapper ∧
    (s.enter e ret).oam = s.oam := by
  cases e <;> simp [State.enter, Entry.mark, State.pushWord, State.read16, State.memRead]

/-- The copy of a DMA writes only OAM, the count of free answers and the transactions. -/
theorem State.dmaBytes_frame (page : Byte) (is : List Nat) (s : State) :
    ∃ oam answers bus, is.foldl (State.dmaByte page) s = { s with oam := oam, answers := answers, bus := bus } := by
  induction is generalizing s with
  | nil => exact ⟨_, _, _, rfl⟩
  | cons i is ih =>
    obtain ⟨oam, answers, bus, h⟩ := ih (State.dmaByte page s i)
    exact ⟨oam, answers, bus, by rw [List.foldl, h]; rfl⟩

/-- A DMA writes only OAM, its own latch, the count, the count of free answers and the transactions. -/
theorem State.serviceDma_frame (s : State) :
    ∃ oam answers bus, s.serviceDma =
      { s with
        oam := oam, answers := answers, bus := bus, dmaPending := false
        cycles := if s.cycOdd then Config.dmaCyclesOdd else Config.dmaCyclesEven } := by
  obtain ⟨oam, answers, bus, h⟩ := State.dmaBytes_frame s.dmaPage (List.range 256) s
  exact ⟨oam, answers, bus, by rw [State.serviceDma, h]; rfl⟩

/-- The gate writes at most the NMI latch. -/
theorem State.gateNmi_eq (policy : NmiPolicy) (s : State) :
    s.gateNmi policy = { s with nmiPending := s.nmiPending && (s.nmiEn || decide (policy = .hold)) } := by
  rcases s with ⟨a, x, y, sp, pc, p, nmiPending, nmiEn⟩
  cases policy <;> cases nmiPending <;> cases nmiEn <;> rfl

/-- A completed fetch writes only the count of free answers and the transactions. -/
theorem fetchInstr_instr {k : Params} {s t : State} {i : Instr} (h : fetchInstr k s = .instr i t) :
    ∃ answers bus, t = { s with answers := answers, bus := bus } := by
  simp only [fetchInstr] at h
  split at h
  · split at h
    · cases h
    · split at h
      · simp only [fetchOperands] at h
        split at h
        · cases h
          exact ⟨_, _, rfl⟩
        · split at h <;> cases h
          exact ⟨_, _, rfl⟩
        · split at h
          · split at h <;> cases h
            exact ⟨_, _, rfl⟩
          · cases h
      · cases h
  · cases h

end Sys2Proof.Machine
end

