-- ==== Sys2Proof/Laws/Sound.lean ====
section
/-! SUPPORT. Every operation, every instruction and every event keeps the stored bytes canonical and in their cells; and every
instruction answers a next state. -/

namespace Sys2Proof.Machine

open Sys2Proof (MemorySound)

/-- Soundness speaks of the stored bytes alone. -/
theorem memorySound_congr {s t : State} (h : MemorySound s) (hm : t.mem = s.mem) (ho : t.oam = s.oam) : MemorySound t := by
  obtain ⟨h1, h2, h3, h4⟩ := h
  rw [← hm] at h1 h2
  rw [← ho] at h3 h4
  exact ⟨h1, h2, h3, h4⟩

/-- Resolving an operand leaves the stored bytes. -/
theorem memorySound_resolve {s : State} (m : EaMode) (h : MemorySound s) : MemorySound (resolve m s).state := by
  rcases resolve_state m s with e | ⟨ptr, e⟩ <;> rw [e]
  · exact h
  · exact memorySound_congr h rfl rfl

/-- Moving PC leaves the stored bytes. -/
theorem memorySound_advance {s : State} (len : Nat) (h : MemorySound s) : MemorySound (s.advance len) :=
  memorySound_congr h rfl rfl

/-- Recording the count leaves the stored bytes. -/
theorem memorySound_charge {s : State} (n : Nat) (h : MemorySound s) : MemorySound (s.charge n) :=
  memorySound_congr h rfl rfl

/-- Reading an operand leaves the stored bytes. -/
theorem memorySound_readSource {s : State} (src : Source) (h : MemorySound s) : MemorySound (readSource src s).state := by
  cases src with
  | imm v => exact h
  | ea m => exact State.memorySound_afterRead _ (memorySound_resolve m h)

namespace State

theorem memorySound_push {s : State} (v : Byte) (h : MemorySound s) : MemorySound (s.push v) :=
  memorySound_congr (memorySound_memWrite (stackAddr s.sp) v h) rfl rfl

theorem memorySound_pushWord {s : State} (w : Addr) (h : MemorySound s) : MemorySound (s.pushWord w) :=
  memorySound_push _ (memorySound_push _ h)

/-- Taking an exception keeps the stored bytes sound. -/
theorem memorySound_enter {s : State} (e : Entry) (ret : Addr) (h : MemorySound s) : MemorySound (s.enter e ret) := by
  have hp : MemorySound ((s.pushWord ret).push (e.image s.p)) := memorySound_push _ (memorySound_pushWord ret h)
  cases e <;> exact memorySound_congr hp rfl rfl

/-- Byte `i` of a DMA keeps the stored bytes sound. -/
theorem memorySound_dmaByte {s : State} (page : Byte) (i : Nat) (h : MemorySound s) :
    MemorySound (State.dmaByte page s i) :=
  memorySound_oamWrite _ _ (memorySound_afterRead _ h)

/-- A DMA keeps the stored bytes sound. -/
theorem memorySound_serviceDma {s : State} (h : MemorySound s) : MemorySound s.serviceDma := by
  have hf : ∀ (is : List Nat) (u : State), MemorySound u → MemorySound (is.foldl (State.dmaByte s.dmaPage) u) := by
    intro is
    induction is with
    | nil => exact fun _ hu => hu
    | cons i is ih => exact fun u hu => ih _ (memorySound_dmaByte _ i hu)
  have hr := hf (List.range 256) s h
  unfold State.serviceDma
  generalize (List.range 256).foldl (State.dmaByte s.dmaPage) s = u at hr
  exact memorySound_congr hr rfl rfl

end State

theorem memorySound_readClass {effect : Byte → State → State} (he : ∀ v s, MemorySound s → MemorySound (effect v s))
    {src : Source} {base : Nat} {pen : Bool} {s t : State} (h : MemorySound s)
    (ht : readClass effect src base pen s = .next t) : MemorySound t := by
  obtain ⟨f, rfl, rfl⟩ := readClass_next ht
  exact memorySound_charge _ (he _ _ (memorySound_readSource src (memorySound_advance _ h)))

theorem memorySound_writeClass {value : State → Byte} {m : EaMode} {base : Nat} {s t : State} (h : MemorySound s)
    (ht : writeClass value m base s = .next t) : MemorySound t := by
  obtain ⟨r, rfl, rfl⟩ := writeClass_next ht
  exact memorySound_charge _ (State.memorySound_memWrite _ _ (memorySound_resolve m (memorySound_advance _ h)))

theorem memorySound_rmwClass {op : Byte → Status → Byte × Status} {m : EaMode} {base : Nat} {s t : State}
    (h : MemorySound s) (ht : rmwClass op m base s = .next t) : MemorySound t := by
  obtain ⟨r, out, rfl, rfl, rfl⟩ := rmwClass_next ht
  exact memorySound_congr (State.memorySound_memWrite _ _
    (State.memorySound_afterRead _ (memorySound_resolve m (memorySound_advance _ h)))) rfl rfl

theorem memorySound_implicitClass {effect : State → State} (he : ∀ s, MemorySound s → MemorySound (effect s)) {base : Nat}
    {s t : State} (h : MemorySound s) (ht : implicitClass effect base s = .next t) : MemorySound t := by
  rw [implicitClass_next ht]
  exact memorySound_charge _ (he _ (memorySound_advance _ h))

/-- A branch writes PC and the count alone. -/
theorem branchClass_next {taken : Bool} {off : Byte} {s t : State} (h : branchClass taken off s = .next t) :
    ∃ pc n, t = { s with pc := pc, cycles := n } := by
  cases taken <;> simp only [branchClass, if_true, Bool.false_eq_true, if_false, Host.Outcome.next.injEq] at h <;>
    exact ⟨_, _, h.symm⟩

theorem branchClass_answers_next (taken : Bool) (off : Byte) (s : State) : ∃ t, branchClass taken off s = .next t := by
  cases taken <;> exact ⟨_, rfl⟩

theorem memorySound_branchClass {taken : Bool} {off : Byte} {s t : State} (h : MemorySound s)
    (ht : branchClass taken off s = .next t) : MemorySound t := by
  obtain ⟨pc, n, rfl⟩ := branchClass_next ht
  exact memorySound_congr h rfl rfl

/-- An operation that leaves the stored bytes keeps them sound. -/
theorem memorySound_next {s t u : State} (ht : (Host.Outcome.next u : Host.Outcome State Fault Refusal) = .next t)
    (h : MemorySound s) (hm : u.mem = s.mem) (ho : u.oam = s.oam) : MemorySound t := by
  cases ht
  exact memorySound_congr h hm ho

theorem memorySound_jsr {w : Addr} {s t : State} (h : MemorySound s) (ht : execJsrAbs w s = .next t) : MemorySound t := by
  simp only [execJsrAbs, Host.Outcome.next.injEq] at ht
  rw [← ht]
  have hp := State.memorySound_pushWord (s.pc + 2) h
  unfold callTo
  generalize s.pushWord (s.pc + 2) = u at hp
  exact memorySound_congr hp rfl rfl

theorem memorySound_brk {s t : State} (h : MemorySound s) (ht : execBrk s = .next t) : MemorySound t := by
  simp only [execBrk, Host.Outcome.next.injEq] at ht
  rw [← ht]
  exact memorySound_charge _ (State.memorySound_enter .brk _ h)

/-- Every instruction keeps the stored bytes canonical and in their cells. -/
theorem memorySound_exec {i : Instr} {s t : State} (h : MemorySound s) (ht : exec i s = .next t) : MemorySound t := by
  cases i with
  | brk => exact memorySound_brk h ht
  | jsrAbs w => exact memorySound_jsr h ht
  | pha | php => exact memorySound_implicitClass (fun _ hs => State.memorySound_push _ hs) h ht
  | jmpAbs _ | jmpInd _ | rts | rti | pla | plp | aslAcc | lsrAcc | rolAcc | rorAcc | inx | iny | dex | dey | tax | tay | txa
  | tya | tsx | txs | clc | cld | cli | clv | sec | sed | sei | nop => exact memorySound_next ht h rfl rfl
  | staZp _ | staZpx _ | staAbs _ | staAbx _ | staAby _ | staIzx _ | staIzy _ | stxZp _ | stxZpy _ | stxAbs _ | styZp _
  | styZpx _ | styAbs _ => exact memorySound_writeClass h ht
  | aslZp _ | aslZpx _ | aslAbs _ | aslAbx _ | lsrZp _ | lsrZpx _ | lsrAbs _ | lsrAbx _ | rolZp _ | rolZpx _ | rolAbs _
  | rolAbx _ | rorZp _ | rorZpx _ | rorAbs _ | rorAbx _ | incZp _ | incZpx _ | incAbs _ | incAbx _ | decZp _ | decZpx _
  | decAbs _ | decAbx _ => exact memorySound_rmwClass h ht
  | bccRel _ | bcsRel _ | beqRel _ | bneRel _ | bmiRel _ | bplRel _ | bvcRel _ | bvsRel _ =>
    exact memorySound_branchClass h ht
  | _ =>
    refine memorySound_readClass (fun _ _ hs => ?_) h ht
    exact memorySound_congr hs rfl rfl

/-- Every instruction answers a next state: none stops. -/
theorem exec_answers_next (i : Instr) (s : State) : ∃ t, exec i s = .next t := by
  cases i with
  | bccRel off | bcsRel off | beqRel off | bneRel off | bmiRel off | bplRel off | bvcRel off | bvsRel off =>
    exact branchClass_answers_next _ off s
  | _ => exact ⟨_, rfl⟩

end Sys2Proof.Machine
end

