-- ==== Sys2Proof/Tests/Slice0.lean ====
section
/-! SUPPORT. Tests with expected results from the spec: the vectors of 95_test_vectors, the encodings of 30_encoding R59 and R60,
and the worked examples of the rules. -/

namespace Sys2Proof.Tests

open Sys2Proof.Machine

/-- The state before a vector, by the conventions of 95_test_vectors: A=00 X=00 Y=00 SP=FD P=24, PC=8000. -/
def base : State := { State.reset with pc := 0x8000, bus := [] }

/-- A state with stored bytes put in place, ROM included. -/
def holding (s : State) (cells : List (Addr × Byte)) : State := cells.foldl (fun t c => t.poke c.1 c.2) s

/-- One step after the bytes are put at PC. -/
def stepOn (bytes : List Byte) (s : State) : Option State :=
  match step (s.pokeBytes s.pc bytes) with
  | .next t => some t
  | _ => none

/-- The addresses and bytes of the writes, in order. -/
def writesOf (s : State) : List (Nat × Nat) :=
  s.bus.reverse.filterMap fun e => match e with
    | .write a v => some (a.toNat, v.toNat)
    | _ => none

/-- The addresses of the reads, in order. -/
def readsOf (s : State) : List Nat :=
  s.bus.reverse.filterMap fun e => match e with
    | .read a _ => some a.toNat
    | _ => none

/-- A, X, Y, SP, P, PC and the cycles. -/
def registersOf (s : State) : List Nat :=
  [s.a.toNat, s.x.toNat, s.y.toNat, s.sp.toNat, s.p.toByte.toNat, s.pc.toNat, s.cycles]

/-- A row of 95_test_vectors: bytes at PC, state before, registers and cycles after, writes, reads. -/
abbrev Vector := List Byte × State × List Nat × List (Nat × Nat) × List Nat

/-- One step on the row's bytes gives the row's registers, cycles, writes and reads. -/
def agrees : Vector → Bool
  | (bytes, s, regs, writes, reads) =>
    (stepOn bytes s).map (fun t => (registersOf t, writesOf t, readsOf t)) == some (regs, writes, reads)

/-- 95_test_vectors section 2, T-A1 to T-A9. -/
theorem test_modes_A1_to_A9 : ([
    ([0xE8], { base with x := 0x0F },
      [0x00, 0x10, 0x00, 0xFD, 0x24, 0x8001, 2], [], [0x8000]),
    ([0x0A], { base with a := 0x81 },
      [0x02, 0x00, 0x00, 0xFD, 0x25, 0x8001, 2], [], [0x8000]),
    ([0xA9, 0x50], base,
      [0x50, 0x00, 0x00, 0xFD, 0x24, 0x8002, 2], [], [0x8000, 0x8001]),
    ([0xA5, 0x10], holding base [(0x0010, 0x77)],
      [0x77, 0x00, 0x00, 0xFD, 0x24, 0x8002, 3], [], [0x8000, 0x8001, 0x0010]),
    ([0xB5, 0xF0], holding { base with x := 0x20 } [(0x0010, 0x77), (0x0110, 0x99)],
      [0x77, 0x20, 0x00, 0xFD, 0x24, 0x8002, 4], [], [0x8000, 0x8001, 0x0010]),
    ([0xB6, 0xFF], holding { base with y := 0x01 } [(0x0000, 0x42), (0x0100, 0x99)],
      [0x00, 0x42, 0x01, 0xFD, 0x24, 0x8002, 4], [], [0x8000, 0x8001, 0x0000]),
    ([0xAD, 0x34, 0x02], holding base [(0x0234, 0x5A)],
      [0x5A, 0x00, 0x00, 0xFD, 0x24, 0x8003, 4], [], [0x8000, 0x8001, 0x8002, 0x0234]),
    ([0xBD, 0x00, 0x02], holding { base with x := 0x10 } [(0x0210, 0x11)],
      [0x11, 0x10, 0x00, 0xFD, 0x24, 0x8003, 4], [], [0x8000, 0x8001, 0x8002, 0x0210]),
    ([0xBD, 0xF0, 0x02], holding { base with x := 0x20 } [(0x0310, 0x22)],
      [0x22, 0x20, 0x00, 0xFD, 0x24, 0x8003, 5], [], [0x8000, 0x8001, 0x8002, 0x0310])] :
    List Vector).all agrees = true := by
  decide

/-- 95_test_vectors section 2, T-A10 to T-A18. -/
theorem test_modes_A10_to_A18 : ([
    ([0xB9, 0xFF, 0xFF], holding { base with y := 0x02 } [(0x0001, 0x33)],
      [0x33, 0x00, 0x02, 0xFD, 0x24, 0x8003, 5], [], [0x8000, 0x8001, 0x8002, 0x0001]),
    ([0x6C, 0x00, 0x02], holding base [(0x0200, 0x34), (0x0201, 0x12)],
      [0x00, 0x00, 0x00, 0xFD, 0x24, 0x1234, 5], [], [0x8000, 0x8001, 0x8002, 0x0200, 0x0201]),
    ([0x6C, 0xFF, 0x02], holding base [(0x0200, 0x12), (0x02FF, 0x34), (0x0300, 0x56)],
      [0x00, 0x00, 0x00, 0xFD, 0x24, 0x1234, 5], [], [0x8000, 0x8001, 0x8002, 0x02FF, 0x0200]),
    ([0xA1, 0x20], holding { base with x := 0x04 } [(0x0024, 0x00), (0x0025, 0x03), (0x0300, 0x5A)],
      [0x5A, 0x04, 0x00, 0xFD, 0x24, 0x8002, 6], [], [0x8000, 0x8001, 0x0024, 0x0025, 0x0300]),
    ([0xA1, 0xFE], holding { base with x := 0x01 } [(0x0000, 0x03), (0x00FF, 0x00), (0x0100, 0x07), (0x0300, 0x5A), (0x0700, 0x66)],
      [0x5A, 0x01, 0x00, 0xFD, 0x24, 0x8002, 6], [], [0x8000, 0x8001, 0x00FF, 0x0000, 0x0300]),
    ([0xB1, 0x40], holding { base with y := 0x10 } [(0x0040, 0x00), (0x0041, 0x03), (0x0310, 0x44)],
      [0x44, 0x00, 0x10, 0xFD, 0x24, 0x8002, 5], [], [0x8000, 0x8001, 0x0040, 0x0041, 0x0310]),
    ([0xB1, 0x40], holding { base with y := 0x10 } [(0x0040, 0xF8), (0x0041, 0x02), (0x0308, 0x55)],
      [0x55, 0x00, 0x10, 0xFD, 0x24, 0x8002, 6], [], [0x8000, 0x8001, 0x0040, 0x0041, 0x0308]),
    ([0xB1, 0xFF], holding base [(0x0000, 0x03), (0x00FF, 0x10), (0x0100, 0x07), (0x0310, 0x66)],
      [0x66, 0x00, 0x00, 0xFD, 0x24, 0x8002, 5], [], [0x8000, 0x8001, 0x00FF, 0x0000, 0x0310]),
    ([0xD0, 0x05], base,
      [0x00, 0x00, 0x00, 0xFD, 0x24, 0x8007, 3], [], [0x8000, 0x8001])] :
    List Vector).all agrees = true := by
  decide

/-- 95_test_vectors section 2, T-A19 to T-A25. -/
theorem test_modes_A19_to_A25 : ([
    ([0xD0, 0xFB], base,
      [0x00, 0x00, 0x00, 0xFD, 0x24, 0x7FFD, 4], [], [0x8000, 0x8001]),
    ([0x9D, 0xF0, 0x02], { base with a := 0xAA, x := 0x20 },
      [0xAA, 0x20, 0x00, 0xFD, 0x24, 0x8003, 5], [(0x0310, 0xAA)], [0x8000, 0x8001, 0x8002]),
    ([0x91, 0x40], holding { base with a := 0xBB, y := 0x10 } [(0x0040, 0xF8), (0x0041, 0x02)],
      [0xBB, 0x00, 0x10, 0xFD, 0x24, 0x8002, 6], [(0x0308, 0xBB)], [0x8000, 0x8001, 0x0040, 0x0041]),
    ([0x1E, 0xF0, 0x02], holding { base with x := 0x20 } [(0x0310, 0x81)],
      [0x00, 0x20, 0x00, 0xFD, 0x25, 0x8003, 7], [(0x0310, 0x02)], [0x8000, 0x8001, 0x8002, 0x0310]),
    ([0xA1, 0x20], holding { base with x := 0xFF } [(0x001F, 0x00), (0x0020, 0x03), (0x0300, 0x5A)],
      [0x5A, 0xFF, 0x00, 0xFD, 0x24, 0x8002, 6], [], [0x8000, 0x8001, 0x001F, 0x0020, 0x0300]),
    ([0xBE, 0xF0, 0x02], holding { base with y := 0x20 } [(0x0310, 0x22)],
      [0x00, 0x22, 0x20, 0xFD, 0x24, 0x8003, 5], [], [0x8000, 0x8001, 0x8002, 0x0310]),
    ([0xBC, 0x00, 0x02], holding { base with x := 0xFF } [(0x02FF, 0x80)],
      [0x00, 0xFF, 0x80, 0xFD, 0xA4, 0x8003, 4], [], [0x8000, 0x8001, 0x8002, 0x02FF])] :
    List Vector).all agrees = true := by
  decide

/-- 95_test_vectors section 3.1, T-L1 to T-L10. -/
theorem test_load_alu_L1_to_L10 : ([
    ([0xA9, 0x00], { base with a := 0x55 },
      [0x00, 0x00, 0x00, 0xFD, 0x26, 0x8002, 2], [], [0x8000, 0x8001]),
    ([0xA9, 0x80], base,
      [0x80, 0x00, 0x00, 0xFD, 0xA4, 0x8002, 2], [], [0x8000, 0x8001]),
    ([0xB6, 0x10], holding { base with y := 0x05 } [(0x0015, 0x7F)],
      [0x00, 0x7F, 0x05, 0xFD, 0x24, 0x8002, 4], [], [0x8000, 0x8001, 0x0015]),
    ([0xA0, 0xFF], base,
      [0x00, 0x00, 0xFF, 0xFD, 0xA4, 0x8002, 2], [], [0x8000, 0x8001]),
    ([0x69, 0x01], { base with a := 0x7F },
      [0x80, 0x00, 0x00, 0xFD, 0xE4, 0x8002, 2], [], [0x8000, 0x8001]),
    ([0x69, 0x01], { base with a := 0xFF },
      [0x00, 0x00, 0x00, 0xFD, 0x27, 0x8002, 2], [], [0x8000, 0x8001]),
    ([0x69, 0x80], { base with a := 0x80 },
      [0x00, 0x00, 0x00, 0xFD, 0x67, 0x8002, 2], [], [0x8000, 0x8001]),
    ([0x69, 0xFF], { base with a := 0xFF, p := .ofByte 0x25 },
      [0xFF, 0x00, 0x00, 0xFD, 0xA5, 0x8002, 2], [], [0x8000, 0x8001]),
    ([0x69, 0x7F], { base with a := 0x7F, p := .ofByte 0x25 },
      [0xFF, 0x00, 0x00, 0xFD, 0xE4, 0x8002, 2], [], [0x8000, 0x8001]),
    ([0x69, 0x01], { base with a := 0x09, p := .ofByte 0x2C },
      [0x0A, 0x00, 0x00, 0xFD, 0x2C, 0x8002, 2], [], [0x8000, 0x8001])] :
    List Vector).all agrees = true := by
  decide

/-- 95_test_vectors section 3.1, T-L11 to T-L20. -/
theorem test_load_alu_L11_to_L20 : ([
    ([0x69, 0x05], { base with a := 0x10, p := .ofByte 0x25 },
      [0x16, 0x00, 0x00, 0xFD, 0x24, 0x8002, 2], [], [0x8000, 0x8001]),
    ([0xE9, 0x50], { base with a := 0x50, p := .ofByte 0x25 },
      [0x00, 0x00, 0x00, 0xFD, 0x27, 0x8002, 2], [], [0x8000, 0x8001]),
    ([0xE9, 0x01], { base with p := .ofByte 0x25 },
      [0xFF, 0x00, 0x00, 0xFD, 0xA4, 0x8002, 2], [], [0x8000, 0x8001]),
    ([0xE9, 0x01], { base with a := 0x80, p := .ofByte 0x25 },
      [0x7F, 0x00, 0x00, 0xFD, 0x65, 0x8002, 2], [], [0x8000, 0x8001]),
    ([0xE9, 0x00], base,
      [0xFF, 0x00, 0x00, 0xFD, 0xA4, 0x8002, 2], [], [0x8000, 0x8001]),
    ([0xE9, 0xFF], { base with a := 0x7F, p := .ofByte 0x25 },
      [0x80, 0x00, 0x00, 0xFD, 0xE4, 0x8002, 2], [], [0x8000, 0x8001]),
    ([0xE9, 0x01], { base with a := 0x10, p := .ofByte 0x2D },
      [0x0F, 0x00, 0x00, 0xFD, 0x2D, 0x8002, 2], [], [0x8000, 0x8001]),
    ([0x29, 0x0F], { base with a := 0xF0 },
      [0x00, 0x00, 0x00, 0xFD, 0x26, 0x8002, 2], [], [0x8000, 0x8001]),
    ([0x09, 0x80], { base with a := 0x01 },
      [0x81, 0x00, 0x00, 0xFD, 0xA4, 0x8002, 2], [], [0x8000, 0x8001]),
    ([0x49, 0xFF], { base with a := 0xFF },
      [0x00, 0x00, 0x00, 0xFD, 0x26, 0x8002, 2], [], [0x8000, 0x8001])] :
    List Vector).all agrees = true := by
  decide

/-- 95_test_vectors section 3.1, T-L21 to T-L29. -/
theorem test_load_alu_L21_to_L29 : ([
    ([0xC9, 0x50], { base with a := 0x50 },
      [0x50, 0x00, 0x00, 0xFD, 0x27, 0x8002, 2], [], [0x8000, 0x8001]),
    ([0xC9, 0x01], { base with p := .ofByte 0x65 },
      [0x00, 0x00, 0x00, 0xFD, 0xE4, 0x8002, 2], [], [0x8000, 0x8001]),
    ([0xC9, 0x7F], { base with a := 0x80 },
      [0x80, 0x00, 0x00, 0xFD, 0x25, 0x8002, 2], [], [0x8000, 0x8001]),
    ([0xE0, 0x0A], { base with x := 0x05 },
      [0x00, 0x05, 0x00, 0xFD, 0xA4, 0x8002, 2], [], [0x8000, 0x8001]),
    ([0xC0, 0x10], { base with y := 0x10 },
      [0x00, 0x00, 0x10, 0xFD, 0x27, 0x8002, 2], [], [0x8000, 0x8001]),
    ([0x24, 0x10], holding { base with a := 0x01 } [(0x0010, 0xC0)],
      [0x01, 0x00, 0x00, 0xFD, 0xE6, 0x8002, 3], [], [0x8000, 0x8001, 0x0010]),
    ([0x2C, 0x00, 0x02], holding { base with a := 0xFF, p := .ofByte 0xE4 } [(0x0200, 0x3F)],
      [0xFF, 0x00, 0x00, 0xFD, 0x24, 0x8003, 4], [], [0x8000, 0x8001, 0x8002, 0x0200]),
    ([0x65, 0x10], holding { base with a := 0x01 } [(0x0010, 0x02)],
      [0x03, 0x00, 0x00, 0xFD, 0x24, 0x8002, 3], [], [0x8000, 0x8001, 0x0010]),
    ([0x7D, 0xFF, 0x02], holding { base with a := 0x01, x := 0x01 } [(0x0300, 0x02)],
      [0x03, 0x01, 0x00, 0xFD, 0x24, 0x8003, 5], [], [0x8000, 0x8001, 0x8002, 0x0300])] :
    List Vector).all agrees = true := by
  decide

/-- 95_test_vectors section 3.2, T-H1 to T-H8. -/
theorem test_shift_incdec_H1_to_H8 : ([
    ([0x0A], { base with a := 0x80 },
      [0x00, 0x00, 0x00, 0xFD, 0x27, 0x8001, 2], [], [0x8000]),
    ([0x06, 0x10], holding base [(0x0010, 0x40)],
      [0x00, 0x00, 0x00, 0xFD, 0xA4, 0x8002, 5], [(0x0010, 0x80)], [0x8000, 0x8001, 0x0010]),
    ([0x4A], { base with a := 0x01, p := .ofByte 0xA4 },
      [0x00, 0x00, 0x00, 0xFD, 0x27, 0x8001, 2], [], [0x8000]),
    ([0x2A], { base with a := 0x80 },
      [0x00, 0x00, 0x00, 0xFD, 0x27, 0x8001, 2], [], [0x8000]),
    ([0x26, 0x10], holding { base with p := .ofByte 0x25 } [(0x0010, 0x00)],
      [0x00, 0x00, 0x00, 0xFD, 0x24, 0x8002, 5], [(0x0010, 0x01)], [0x8000, 0x8001, 0x0010]),
    ([0x6A], { base with a := 0x01 },
      [0x00, 0x00, 0x00, 0xFD, 0x27, 0x8001, 2], [], [0x8000]),
    ([0x6E, 0x00, 0x02], holding { base with p := .ofByte 0x25 } [(0x0200, 0x00)],
      [0x00, 0x00, 0x00, 0xFD, 0xA4, 0x8003, 6], [(0x0200, 0x80)], [0x8000, 0x8001, 0x8002, 0x0200]),
    ([0xE6, 0x10], holding base [(0x0010, 0xFF)],
      [0x00, 0x00, 0x00, 0xFD, 0x26, 0x8002, 5], [(0x0010, 0x00)], [0x8000, 0x8001, 0x0010])] :
    List Vector).all agrees = true := by
  decide

/-- 95_test_vectors section 3.2, T-H9 to T-H16. -/
theorem test_shift_incdec_H9_to_H16 : ([
    ([0xCE, 0x00, 0x02], holding base [(0x0200, 0x00)],
      [0x00, 0x00, 0x00, 0xFD, 0xA4, 0x8003, 6], [(0x0200, 0xFF)], [0x8000, 0x8001, 0x8002, 0x0200]),
    ([0xE8], { base with x := 0xFF },
      [0x00, 0x00, 0x00, 0xFD, 0x26, 0x8001, 2], [], [0x8000]),
    ([0xC8], { base with y := 0x7F },
      [0x00, 0x00, 0x80, 0xFD, 0xA4, 0x8001, 2], [], [0x8000]),
    ([0xCA], base,
      [0x00, 0xFF, 0x00, 0xFD, 0xA4, 0x8001, 2], [], [0x8000]),
    ([0x88], base,
      [0x00, 0x00, 0xFF, 0xFD, 0xA4, 0x8001, 2], [], [0x8000]),
    ([0xF6, 0xFF], holding { base with x := 0x01, p := .ofByte 0x65 } [(0x0000, 0x7F)],
      [0x00, 0x01, 0x00, 0xFD, 0xE5, 0x8002, 6], [(0x0000, 0x80)], [0x8000, 0x8001, 0x0000]),
    ([0xDE, 0x00, 0x02], holding { base with x := 0xFF } [(0x02FF, 0x01)],
      [0x00, 0xFF, 0x00, 0xFD, 0x26, 0x8003, 7], [(0x02FF, 0x00)], [0x8000, 0x8001, 0x8002, 0x02FF])] :
    List Vector).all agrees = true := by
  decide

/-- 95_test_vectors section 3.3, T-W1 to T-W11. -/
theorem test_store_W1_to_W11 : ([
    ([0x85, 0x10], { base with p := .ofByte 0xA4 },
      [0x00, 0x00, 0x00, 0xFD, 0xA4, 0x8002, 3], [(0x0010, 0x00)], [0x8000, 0x8001]),
    ([0x96, 0xF0], { base with x := 0x77, y := 0x20 },
      [0x00, 0x77, 0x20, 0xFD, 0x24, 0x8002, 4], [(0x0010, 0x77)], [0x8000, 0x8001]),
    ([0x8C, 0x00, 0x02], { base with y := 0x99 },
      [0x00, 0x00, 0x99, 0xFD, 0x24, 0x8003, 4], [(0x0200, 0x99)], [0x8000, 0x8001, 0x8002]),
    ([0x8D, 0x00, 0x90], { base with a := 0x12 },
      [0x12, 0x00, 0x00, 0xFD, 0x24, 0x8003, 4], [(0x9000, 0x12)], [0x8000, 0x8001, 0x8002]),
    ([0x8D, 0x00, 0x20], { base with a := 0x80 },
      [0x80, 0x00, 0x00, 0xFD, 0x24, 0x8003, 4], [(0x2000, 0x80)], [0x8000, 0x8001, 0x8002]),
    ([0x8D, 0xF8, 0x3F], { base with a := 0xFF },
      [0xFF, 0x00, 0x00, 0xFD, 0x24, 0x8003, 4], [(0x3FF8, 0xFF)], [0x8000, 0x8001, 0x8002]),
    ([0x8D, 0x01, 0x20], { base with a := 0x80 },
      [0x80, 0x00, 0x00, 0xFD, 0x24, 0x8003, 4], [(0x2001, 0x80)], [0x8000, 0x8001, 0x8002]),
    ([0x8D, 0x14, 0x40], { base with a := 0xAB },
      [0xAB, 0x00, 0x00, 0xFD, 0x24, 0x8003, 4], [(0x4014, 0xAB)], [0x8000, 0x8001, 0x8002]),
    ([0x8D, 0x03, 0x00], { base with a := 0x5C },
      [0x5C, 0x00, 0x00, 0xFD, 0x24, 0x8003, 4], [(0x0003, 0x5C)], [0x8000, 0x8001, 0x8002]),
    ([0x81, 0x20], holding { base with a := 0x5A, x := 0x04 } [(0x0024, 0x00), (0x0025, 0x03)],
      [0x5A, 0x04, 0x00, 0xFD, 0x24, 0x8002, 6], [(0x0300, 0x5A)], [0x8000, 0x8001, 0x0024, 0x0025]),
    ([0x8E, 0x00, 0x20], { base with x := 0x7F, nmiEn := true },
      [0x00, 0x7F, 0x00, 0xFD, 0x24, 0x8003, 4], [(0x2000, 0x7F)], [0x8000, 0x8001, 0x8002])] :
    List Vector).all agrees = true := by
  decide

/-- 95_test_vectors section 3.4, T-B1 to T-B8. -/
theorem test_branch_B1_to_B8 : ([
    ([0x90, 0x10], base,
      [0x00, 0x00, 0x00, 0xFD, 0x24, 0x8012, 3], [], [0x8000, 0x8001]),
    ([0x90, 0x10], { base with p := .ofByte 0x25 },
      [0x00, 0x00, 0x00, 0xFD, 0x25, 0x8002, 2], [], [0x8000, 0x8001]),
    ([0xB0, 0x10], { base with p := .ofByte 0x25 },
      [0x00, 0x00, 0x00, 0xFD, 0x25, 0x8012, 3], [], [0x8000, 0x8001]),
    ([0xF0, 0x10], { base with p := .ofByte 0x26 },
      [0x00, 0x00, 0x00, 0xFD, 0x26, 0x8012, 3], [], [0x8000, 0x8001]),
    ([0xF0, 0x10], base,
      [0x00, 0x00, 0x00, 0xFD, 0x24, 0x8002, 2], [], [0x8000, 0x8001]),
    ([0xD0, 0xFE], base,
      [0x00, 0x00, 0x00, 0xFD, 0x24, 0x8000, 3], [], [0x8000, 0x8001]),
    ([0x30, 0x7F], { base with p := .ofByte 0xA4 },
      [0x00, 0x00, 0x00, 0xFD, 0xA4, 0x8081, 3], [], [0x8000, 0x8001]),
    ([0x10, 0x80], base,
      [0x00, 0x00, 0x00, 0xFD, 0x24, 0x7F82, 4], [], [0x8000, 0x8001])] :
    List Vector).all agrees = true := by
  decide

/-- 95_test_vectors section 3.4, T-B9 to T-B15. -/
theorem test_branch_B9_to_B15 : ([
    ([0x50, 0x85], { base with pc := 0x8079 },
      [0x00, 0x00, 0x00, 0xFD, 0x24, 0x8000, 3], [], [0x8079, 0x807A]),
    ([0x50, 0x85], { base with p := .ofByte 0x64, pc := 0x8079 },
      [0x00, 0x00, 0x00, 0xFD, 0x64, 0x807B, 2], [], [0x8079, 0x807A]),
    ([0x70, 0x02], { base with p := .ofByte 0x64, pc := 0x80FC },
      [0x00, 0x00, 0x00, 0xFD, 0x64, 0x8100, 4], [], [0x80FC, 0x80FD]),
    ([0xF0, 0x20], { base with p := .ofByte 0x26, pc := 0xFFF0 },
      [0x00, 0x00, 0x00, 0xFD, 0x26, 0x0012, 4], [], [0xFFF0, 0xFFF1]),
    ([0xB0, 0x00], { base with p := .ofByte 0x25 },
      [0x00, 0x00, 0x00, 0xFD, 0x25, 0x8002, 3], [], [0x8000, 0x8001]),
    ([0xD0, 0x7D], { base with pc := 0x8080 },
      [0x00, 0x00, 0x00, 0xFD, 0x24, 0x80FF, 3], [], [0x8080, 0x8081]),
    ([0xD0, 0x7E], { base with pc := 0x8080 },
      [0x00, 0x00, 0x00, 0xFD, 0x24, 0x8100, 4], [], [0x8080, 0x8081])] :
    List Vector).all agrees = true := by
  decide

/-- 95_test_vectors section 3.5, T-J1 to T-J7. -/
theorem test_jump_return_J1_to_J7 : ([
    ([0x4C, 0x34, 0x12], base,
      [0x00, 0x00, 0x00, 0xFD, 0x24, 0x1234, 3], [], [0x8000, 0x8001, 0x8002]),
    ([0x20, 0x00, 0x90], base,
      [0x00, 0x00, 0x00, 0xFB, 0x24, 0x9000, 6], [(0x01FD, 0x80), (0x01FC, 0x02)], [0x8000, 0x8001, 0x8002]),
    ([0x60], holding { base with sp := 0xFB } [(0x01FC, 0x02), (0x01FD, 0x80)],
      [0x00, 0x00, 0x00, 0xFD, 0x24, 0x8003, 6], [], [0x8000, 0x01FC, 0x01FD]),
    ([0x40], holding { base with sp := 0xFA } [(0x01FB, 0xC3), (0x01FC, 0x34), (0x01FD, 0x12)],
      [0x00, 0x00, 0x00, 0xFD, 0xE3, 0x1234, 6], [], [0x8000, 0x01FB, 0x01FC, 0x01FD]),
    ([0x20, 0x00, 0x90], { base with sp := 0x00, pc := 0x80FE },
      [0x00, 0x00, 0x00, 0xFE, 0x24, 0x9000, 6], [(0x0100, 0x81), (0x01FF, 0x00)], [0x80FE, 0x80FF, 0x8100]),
    ([0x60], holding { base with sp := 0xFE } [(0x0100, 0xFF), (0x01FF, 0xFF)],
      [0x00, 0x00, 0x00, 0x00, 0x24, 0x0000, 6], [], [0x8000, 0x01FF, 0x0100]),
    ([0x40], holding { base with sp := 0xFE } [(0x0100, 0x00), (0x0101, 0x90), (0x01FF, 0x00)],
      [0x00, 0x00, 0x00, 0x01, 0x20, 0x9000, 6], [], [0x8000, 0x01FF, 0x0100, 0x0101])] :
    List Vector).all agrees = true := by
  decide

/-- 95_test_vectors section 3.6, T-K1 to T-K8. -/
theorem test_stack_K1_to_K8 : ([
    ([0x48], { base with a := 0x42 },
      [0x42, 0x00, 0x00, 0xFC, 0x24, 0x8001, 3], [(0x01FD, 0x42)], [0x8000]),
    ([0x08], base,
      [0x00, 0x00, 0x00, 0xFC, 0x24, 0x8001, 3], [(0x01FD, 0x34)], [0x8000]),
    ([0x08], { base with p := .ofByte 0xEF },
      [0x00, 0x00, 0x00, 0xFC, 0xEF, 0x8001, 3], [(0x01FD, 0xFF)], [0x8000]),
    ([0x68], holding { base with a := 0x55, sp := 0xFC } [(0x01FD, 0x00)],
      [0x00, 0x00, 0x00, 0xFD, 0x26, 0x8001, 4], [], [0x8000, 0x01FD]),
    ([0x28], holding { base with sp := 0xFC } [(0x01FD, 0xFF)],
      [0x00, 0x00, 0x00, 0xFD, 0xFF, 0x8001, 4], [], [0x8000, 0x01FD]),
    ([0x28], holding { base with sp := 0xFC } [(0x01FD, 0x00)],
      [0x00, 0x00, 0x00, 0xFD, 0x20, 0x8001, 4], [], [0x8000, 0x01FD]),
    ([0x68], holding { base with sp := 0xFF } [(0x0100, 0x80)],
      [0x80, 0x00, 0x00, 0x00, 0xA4, 0x8001, 4], [], [0x8000, 0x0100]),
    ([0x48], { base with a := 0x11, sp := 0x00 },
      [0x11, 0x00, 0x00, 0xFF, 0x24, 0x8001, 3], [(0x0100, 0x11)], [0x8000])] :
    List Vector).all agrees = true := by
  decide

/-- 95_test_vectors section 3.7, T-X1 to T-X7. -/
theorem test_transfer_X1_to_X7 : ([
    ([0xAA], { base with x := 0x55 },
      [0x00, 0x00, 0x00, 0xFD, 0x26, 0x8001, 2], [], [0x8000]),
    ([0xA8], { base with a := 0x80 },
      [0x80, 0x00, 0x80, 0xFD, 0xA4, 0x8001, 2], [], [0x8000]),
    ([0x8A], { base with x := 0x7F, p := .ofByte 0xA6 },
      [0x7F, 0x7F, 0x00, 0xFD, 0x24, 0x8001, 2], [], [0x8000]),
    ([0x98], { base with y := 0xFF },
      [0xFF, 0x00, 0xFF, 0xFD, 0xA4, 0x8001, 2], [], [0x8000]),
    ([0xBA], base,
      [0x00, 0xFD, 0x00, 0xFD, 0xA4, 0x8001, 2], [], [0x8000]),
    ([0x9A], base,
      [0x00, 0x00, 0x00, 0x00, 0x24, 0x8001, 2], [], [0x8000]),
    ([0x9A], { base with x := 0x80 },
      [0x00, 0x80, 0x00, 0x80, 0x24, 0x8001, 2], [], [0x8000])] :
    List Vector).all agrees = true := by
  decide

/-- 95_test_vectors section 3.8, T-F1 to T-F8. -/
theorem test_flags_F1_to_F8 : ([
    ([0x18], { base with p := .ofByte 0x25 },
      [0x00, 0x00, 0x00, 0xFD, 0x24, 0x8001, 2], [], [0x8000]),
    ([0xD8], { base with p := .ofByte 0x2C },
      [0x00, 0x00, 0x00, 0xFD, 0x24, 0x8001, 2], [], [0x8000]),
    ([0x58], base,
      [0x00, 0x00, 0x00, 0xFD, 0x20, 0x8001, 2], [], [0x8000]),
    ([0xB8], { base with p := .ofByte 0x64 },
      [0x00, 0x00, 0x00, 0xFD, 0x24, 0x8001, 2], [], [0x8000]),
    ([0x38], base,
      [0x00, 0x00, 0x00, 0xFD, 0x25, 0x8001, 2], [], [0x8000]),
    ([0xF8], base,
      [0x00, 0x00, 0x00, 0xFD, 0x2C, 0x8001, 2], [], [0x8000]),
    ([0x78], { base with p := .ofByte 0x20 },
      [0x00, 0x00, 0x00, 0xFD, 0x24, 0x8001, 2], [], [0x8000]),
    ([0x18], base,
      [0x00, 0x00, 0x00, 0xFD, 0x24, 0x8001, 2], [], [0x8000])] :
    List Vector).all agrees = true := by
  decide

/-- 95_test_vectors section 3.9, T-Z1 to T-Z4. -/
theorem test_brk_nop_Z1_to_Z4 : ([
    ([0x00], holding base [(0xFFFE, 0x00), (0xFFFF, 0x90)],
      [0x00, 0x00, 0x00, 0xFA, 0x24, 0x9000, 7], [(0x01FD, 0x80), (0x01FC, 0x02), (0x01FB, 0x34)], [0x8000, 0xFFFE, 0xFFFF]),
    ([0x00], holding { base with p := .ofByte 0x20 } [(0xFFFE, 0x00), (0xFFFF, 0x90)],
      [0x00, 0x00, 0x00, 0xFA, 0x24, 0x9000, 7], [(0x01FD, 0x80), (0x01FC, 0x02), (0x01FB, 0x30)], [0x8000, 0xFFFE, 0xFFFF]),
    ([0x00], holding { base with sp := 0x01, p := .ofByte 0xE3, pc := 0xFFFF } [(0xFFFE, 0x00)],
      [0x00, 0x00, 0x00, 0xFE, 0xE7, 0x0000, 7], [(0x0101, 0x00), (0x0100, 0x01), (0x01FF, 0xF3)], [0xFFFF, 0xFFFE, 0xFFFF]),
    ([0xEA], { base with a := 0x01, x := 0x02, y := 0x03, p := .ofByte 0xE7 },
      [0x01, 0x02, 0x03, 0xFD, 0xE7, 0x8001, 2], [], [0x8000])] :
    List Vector).all agrees = true := by
  decide

/-- Words of 41_load_alu, written from 30_encoding R59: opcode byte, then the operand `9C` or `9C A5`. -/
theorem test_decode_load_alu : ([
    (16, 0x9CA9, .ldaImm 0x9C), (16, 0x9CA5, .ldaZp 0x9C), (16, 0x9CB5, .ldaZpx 0x9C),
    (24, 0xA59CAD, .ldaAbs 0xA59C), (24, 0xA59CBD, .ldaAbx 0xA59C), (24, 0xA59CB9, .ldaAby 0xA59C),
    (16, 0x9CA1, .ldaIzx 0x9C), (16, 0x9CB1, .ldaIzy 0x9C), (16, 0x9CA2, .ldxImm 0x9C), (16, 0x9CA6, .ldxZp 0x9C),
    (16, 0x9CB6, .ldxZpy 0x9C), (24, 0xA59CAE, .ldxAbs 0xA59C), (24, 0xA59CBE, .ldxAby 0xA59C),
    (16, 0x9CA0, .ldyImm 0x9C), (16, 0x9CA4, .ldyZp 0x9C), (16, 0x9CB4, .ldyZpx 0x9C),
    (24, 0xA59CAC, .ldyAbs 0xA59C), (24, 0xA59CBC, .ldyAbx 0xA59C), (16, 0x9C69, .adcImm 0x9C),
    (16, 0x9C65, .adcZp 0x9C), (16, 0x9C75, .adcZpx 0x9C), (24, 0xA59C6D, .adcAbs 0xA59C),
    (24, 0xA59C7D, .adcAbx 0xA59C), (24, 0xA59C79, .adcAby 0xA59C), (16, 0x9C61, .adcIzx 0x9C),
    (16, 0x9C71, .adcIzy 0x9C), (16, 0x9CE9, .sbcImm 0x9C), (16, 0x9CE5, .sbcZp 0x9C), (16, 0x9CF5, .sbcZpx 0x9C),
    (24, 0xA59CED, .sbcAbs 0xA59C), (24, 0xA59CFD, .sbcAbx 0xA59C), (24, 0xA59CF9, .sbcAby 0xA59C),
    (16, 0x9CE1, .sbcIzx 0x9C), (16, 0x9CF1, .sbcIzy 0x9C), (16, 0x9C29, .andImm 0x9C), (16, 0x9C25, .andZp 0x9C),
    (16, 0x9C35, .andZpx 0x9C), (24, 0xA59C2D, .andAbs 0xA59C), (24, 0xA59C3D, .andAbx 0xA59C),
    (24, 0xA59C39, .andAby 0xA59C), (16, 0x9C21, .andIzx 0x9C), (16, 0x9C31, .andIzy 0x9C),
    (16, 0x9C09, .oraImm 0x9C), (16, 0x9C05, .oraZp 0x9C), (16, 0x9C15, .oraZpx 0x9C),
    (24, 0xA59C0D, .oraAbs 0xA59C), (24, 0xA59C1D, .oraAbx 0xA59C), (24, 0xA59C19, .oraAby 0xA59C),
    (16, 0x9C01, .oraIzx 0x9C), (16, 0x9C11, .oraIzy 0x9C), (16, 0x9C49, .eorImm 0x9C), (16, 0x9C45, .eorZp 0x9C),
    (16, 0x9C55, .eorZpx 0x9C), (24, 0xA59C4D, .eorAbs 0xA59C), (24, 0xA59C5D, .eorAbx 0xA59C),
    (24, 0xA59C59, .eorAby 0xA59C), (16, 0x9C41, .eorIzx 0x9C), (16, 0x9C51, .eorIzy 0x9C),
    (16, 0x9CC9, .cmpImm 0x9C), (16, 0x9CC5, .cmpZp 0x9C), (16, 0x9CD5, .cmpZpx 0x9C),
    (24, 0xA59CCD, .cmpAbs 0xA59C), (24, 0xA59CDD, .cmpAbx 0xA59C), (24, 0xA59CD9, .cmpAby 0xA59C),
    (16, 0x9CC1, .cmpIzx 0x9C), (16, 0x9CD1, .cmpIzy 0x9C), (16, 0x9CE0, .cpxImm 0x9C), (16, 0x9CE4, .cpxZp 0x9C),
    (24, 0xA59CEC, .cpxAbs 0xA59C), (16, 0x9CC0, .cpyImm 0x9C), (16, 0x9CC4, .cpyZp 0x9C),
    (24, 0xA59CCC, .cpyAbs 0xA59C), (16, 0x9C24, .bitZp 0x9C), (24, 0xA59C2C, .bitAbs 0xA59C)] :
    List (Nat × Nat × Instr)).all (fun r => decodeTableWord r.1 r.2.1 == some r.2.2) = true := by
  decide

/-- Words of 42_shift_incdec, written from 30_encoding R59: opcode byte, then the operand `9C` or `9C A5`. -/
theorem test_decode_shift_incdec : ([
    (8, 0x0A, .aslAcc), (16, 0x9C06, .aslZp 0x9C), (16, 0x9C16, .aslZpx 0x9C), (24, 0xA59C0E, .aslAbs 0xA59C),
    (24, 0xA59C1E, .aslAbx 0xA59C), (8, 0x4A, .lsrAcc), (16, 0x9C46, .lsrZp 0x9C), (16, 0x9C56, .lsrZpx 0x9C),
    (24, 0xA59C4E, .lsrAbs 0xA59C), (24, 0xA59C5E, .lsrAbx 0xA59C), (8, 0x2A, .rolAcc), (16, 0x9C26, .rolZp 0x9C),
    (16, 0x9C36, .rolZpx 0x9C), (24, 0xA59C2E, .rolAbs 0xA59C), (24, 0xA59C3E, .rolAbx 0xA59C), (8, 0x6A, .rorAcc),
    (16, 0x9C66, .rorZp 0x9C), (16, 0x9C76, .rorZpx 0x9C), (24, 0xA59C6E, .rorAbs 0xA59C),
    (24, 0xA59C7E, .rorAbx 0xA59C), (16, 0x9CE6, .incZp 0x9C), (16, 0x9CF6, .incZpx 0x9C),
    (24, 0xA59CEE, .incAbs 0xA59C), (24, 0xA59CFE, .incAbx 0xA59C), (16, 0x9CC6, .decZp 0x9C),
    (16, 0x9CD6, .decZpx 0x9C), (24, 0xA59CCE, .decAbs 0xA59C), (24, 0xA59CDE, .decAbx 0xA59C), (8, 0xE8, .inx),
    (8, 0xC8, .iny), (8, 0xCA, .dex), (8, 0x88, .dey)] :
    List (Nat × Nat × Instr)).all (fun r => decodeTableWord r.1 r.2.1 == some r.2.2) = true := by
  decide

/-- Words of 43_store, written from 30_encoding R59: opcode byte, then the operand `9C` or `9C A5`. -/
theorem test_decode_store : ([
    (16, 0x9C85, .staZp 0x9C), (16, 0x9C95, .staZpx 0x9C), (24, 0xA59C8D, .staAbs 0xA59C),
    (24, 0xA59C9D, .staAbx 0xA59C), (24, 0xA59C99, .staAby 0xA59C), (16, 0x9C81, .staIzx 0x9C),
    (16, 0x9C91, .staIzy 0x9C), (16, 0x9C86, .stxZp 0x9C), (16, 0x9C96, .stxZpy 0x9C),
    (24, 0xA59C8E, .stxAbs 0xA59C), (16, 0x9C84, .styZp 0x9C), (16, 0x9C94, .styZpx 0x9C),
    (24, 0xA59C8C, .styAbs 0xA59C)] :
    List (Nat × Nat × Instr)).all (fun r => decodeTableWord r.1 r.2.1 == some r.2.2) = true := by
  decide

/-- Words of 44_branch, written from 30_encoding R59: opcode byte, then the operand `9C` or `9C A5`. -/
theorem test_decode_branch : ([
    (16, 0x9C90, .bccRel 0x9C), (16, 0x9CB0, .bcsRel 0x9C), (16, 0x9CF0, .beqRel 0x9C), (16, 0x9CD0, .bneRel 0x9C),
    (16, 0x9C30, .bmiRel 0x9C), (16, 0x9C10, .bplRel 0x9C), (16, 0x9C50, .bvcRel 0x9C), (16, 0x9C70, .bvsRel 0x9C)] :
    List (Nat × Nat × Instr)).all (fun r => decodeTableWord r.1 r.2.1 == some r.2.2) = true := by
  decide

/-- Words of 45_jump_return, written from 30_encoding R59: opcode byte, then the operand `9C` or `9C A5`. -/
theorem test_decode_jump_return : ([
    (24, 0xA59C4C, .jmpAbs 0xA59C), (24, 0xA59C6C, .jmpInd 0xA59C), (24, 0xA59C20, .jsrAbs 0xA59C), (8, 0x60, .rts),
    (8, 0x40, .rti)] :
    List (Nat × Nat × Instr)).all (fun r => decodeTableWord r.1 r.2.1 == some r.2.2) = true := by
  decide

/-- Words of 46_stack, written from 30_encoding R59: opcode byte, then the operand `9C` or `9C A5`. -/
theorem test_decode_stack : ([
    (8, 0x48, .pha), (8, 0x08, .php), (8, 0x68, .pla), (8, 0x28, .plp)] :
    List (Nat × Nat × Instr)).all (fun r => decodeTableWord r.1 r.2.1 == some r.2.2) = true := by
  decide

/-- Words of 47_transfer, written from 30_encoding R59: opcode byte, then the operand `9C` or `9C A5`. -/
theorem test_decode_transfer : ([
    (8, 0xAA, .tax), (8, 0xA8, .tay), (8, 0x8A, .txa), (8, 0x98, .tya), (8, 0xBA, .tsx), (8, 0x9A, .txs)] :
    List (Nat × Nat × Instr)).all (fun r => decodeTableWord r.1 r.2.1 == some r.2.2) = true := by
  decide

/-- Words of 48_flags, written from 30_encoding R59: opcode byte, then the operand `9C` or `9C A5`. -/
theorem test_decode_flags : ([
    (8, 0x18, .clc), (8, 0xD8, .cld), (8, 0x58, .cli), (8, 0xB8, .clv), (8, 0x38, .sec), (8, 0xF8, .sed),
    (8, 0x78, .sei)] :
    List (Nat × Nat × Instr)).all (fun r => decodeTableWord r.1 r.2.1 == some r.2.2) = true := by
  decide

/-- Words of 49_brk_nop, written from 30_encoding R59: opcode byte, then the operand `9C` or `9C A5`. -/
theorem test_decode_brk_nop : ([
    (8, 0x00, .brk), (8, 0xEA, .nop)] :
    List (Nat × Nat × Instr)).all (fun r => decodeTableWord r.1 r.2.1 == some r.2.2) = true := by
  decide

/-- The 105 unassigned bytes as 30_encoding R60 lists them. -/
theorem test_illegal_bytes : ([
    0x02, 0x03, 0x04, 0x07, 0x0B, 0x0C, 0x0F, 0x12, 0x13, 0x14, 0x17, 0x1A, 0x1B, 0x1C, 0x1F, 0x22, 0x23, 0x27,
    0x2B, 0x2F, 0x32, 0x33, 0x34, 0x37, 0x3A, 0x3B, 0x3C, 0x3F, 0x42, 0x43, 0x44, 0x47, 0x4B, 0x4F, 0x52, 0x53,
    0x54, 0x57, 0x5A, 0x5B, 0x5C, 0x5F, 0x62, 0x63, 0x64, 0x67, 0x6B, 0x6F, 0x72, 0x73, 0x74, 0x77, 0x7A, 0x7B,
    0x7C, 0x7F, 0x80, 0x82, 0x83, 0x87, 0x89, 0x8B, 0x8F, 0x92, 0x93, 0x97, 0x9B, 0x9C, 0x9E, 0x9F, 0xA3, 0xA7,
    0xAB, 0xAF, 0xB2, 0xB3, 0xB7, 0xBB, 0xBF, 0xC2, 0xC3, 0xC7, 0xCB, 0xCF, 0xD2, 0xD3, 0xD4, 0xD7, 0xDA, 0xDB,
    0xDC, 0xDF, 0xE2, 0xE3, 0xE7, 0xEB, 0xEF, 0xF2, 0xF3, 0xF4, 0xF7, 0xFA, 0xFB, 0xFC, 0xFF] :
    List Byte).all (fun b => decode [b, 0x00, 0x00] == .illegalOpcode b) = true := by
  decide

/-- 30_encoding R65: `A9 50 50 85` decodes to LDA #$50 and then BVC with operand 85. The bits are written out: 1010_1001 is
LDA IMMEDIATE, 0101_0000 is BVC. -/
theorem test_decode_source_example :
    decode [0b10101001, 0x50, 0b01010000, 0x85] = .ok (.ldaImm 0x50) [0b01010000, 0x85] ∧
    decode [0b01010000, 0x85] = .ok (.bvcRel 0x85) [] := by
  decide

/-- 30_encoding R56: an operand that the bytes do not hold is no instruction, never a zero-filled one. -/
theorem test_decode_incomplete :
    decode [0xAD, 0x34] = .incomplete 0xAD ∧ decode [0xA9] = .incomplete 0xA9 ∧ decode [] = .noBytes := by
  decide

/-- The encoder gives the bytes of the examples of 30_encoding R63. -/
theorem test_encode_examples :
    encode .clc = [0x18] ∧ encode .aslAcc = [0x0A] ∧ encode (.ldaImm 0x50) = [0xA9, 0x50] ∧
    encode (.ldxZpy 0x10) = [0xB6, 0x10] ∧ encode (.ldaAbs 0x1234) = [0xAD, 0x34, 0x12] ∧
    encode (.jmpInd 0x1234) = [0x6C, 0x34, 0x12] ∧ encode (.bneRel 0xFB) = [0xD0, 0xFB] := by
  decide

/-- WellFormed's check of the pair refuses a mode the mnemonic does not have (30_encoding R62). -/
theorem test_illegal_pair_refused :
    legalPair .LDX .INDIRECT_X = false ∧ (Descriptor.mk .LDX .INDIRECT_X (.u8 0x10)).wf = false ∧
    (Descriptor.mk .STA .IMMEDIATE (.u8 0x10)).wf = false := by
  decide

/-- WellFormed's check of the operand refuses one of the wrong size (30_encoding R54). -/
theorem test_wrong_operand_size_refused :
    operandFits (Descriptor.mk .LDA .IMMEDIATE (.u16 0x0010)) = false ∧
    (Descriptor.mk .LDA .ABSOLUTE (.u8 0x10)).wf = false ∧ (Descriptor.mk .CLC .IMPLICIT (.u8 0x00)).wf = false := by
  decide

/-- T-W4 to T-W7, T-W11: what the write snoops set, and a store to ROM that is dropped. -/
theorem test_snoops :
    (stepOn [0x8D, 0x00, 0x90] { base with a := 0x12 }).map (fun t => t.byteAt 0x9000) = some (some 0x00) ∧
    (stepOn [0x8D, 0x00, 0x20] { base with a := 0x80 }).map State.nmiEn = some true ∧
    (stepOn [0x8D, 0xF8, 0x3F] { base with a := 0xFF }).map State.nmiEn = some true ∧
    (stepOn [0x8D, 0x01, 0x20] { base with a := 0x80 }).map State.nmiEn = some false ∧
    (stepOn [0x8E, 0x00, 0x20] { base with x := 0x7F, nmiEn := true }).map State.nmiEn = some false := by
  decide

/-- T-W8 and T-W9: the DMA trigger, and a RAM byte seen at its mirrors. -/
theorem test_trigger_and_mirrors :
    (stepOn [0x8D, 0x14, 0x40] { base with a := 0xAB }).map (fun t => (t.dmaPending, t.dmaPage)) = some (true, 0xAB) ∧
    (stepOn [0x8D, 0x03, 0x00] { base with a := 0x5C }).map
      (fun t => [t.byteAt 0x0003, t.byteAt 0x0803, t.byteAt 0x1003, t.byteAt 0x1803]) =
      some [some 0x5C, some 0x5C, some 0x5C, some 0x5C] := by
  decide

/-- T-H15: INC on the DMA trigger, whose read a device answers. -/
theorem test_inc_on_trigger :
    (stepOn [0xEE, 0x14, 0x40] base).map (fun t => (t.dmaPending, t.dmaPage)) = some (true, Config.freeByte 0 + 1) := by
  rfl

/-- T-N11: LDA of an unmapped address takes the environment's answer. -/
theorem test_unmapped_read :
    (stepOn [0xAD, 0x18, 0x40] base).map (fun t => (t.a, t.cycles, t.answers)) = some (Config.freeByte 0, 4, 1) := by
  rfl

/-- T-J4: RTI leaves `SERVICING_NMI`. -/
theorem test_rti_clears_service :
    (stepOn [0x40] (holding { base with sp := 0xFA, svcNmi := true } [(0x01FB, 0xC3), (0x01FC, 0x34), (0x01FD, 0x12)])).map
      State.svcNmi = some false := by
  decide

/-- The state before T-N1. -/
def nmiAndDma : State :=
  holding { base with pc := 0x8123, p := .ofByte 0xE5, nmiPending := true, nmiEn := true, dmaPending := true, dmaPage := 0x02 }
    [(0xFFFB, 0x90), (0x0200, 0x31), (0x02FF, 0x77)]

/-- T-N1: NMI service beats a pending DMA. -/
theorem test_nmi_before_dma :
    (stepOn [] nmiAndDma).map (fun t => (registersOf t, writesOf t, readsOf t)) =
      some ([0x00, 0x00, 0x00, 0xFA, 0xE5, 0x9000, 7], [(0x01FD, 0x81), (0x01FC, 0x23), (0x01FB, 0xE5)],
        [0xFFFA, 0xFFFB]) ∧
    (stepOn [] nmiAndDma).map (fun t => (t.nmiPending, t.svcNmi, t.dmaPending, t.cycOdd)) =
      some (false, true, true, true) := by
  decide

/-- T-N1, second step: the DMA from page 02, started on an odd cycle. -/
theorem test_dma_after_nmi :
    ((stepOn [] nmiAndDma).bind (stepOn [])).map
      (fun t => ((t.pc, t.sp, t.cycles, t.cycOdd), (t.dmaPending, t.oam.read 0x00, t.oam.read 0xFF, t.oam.read 0x01))) =
      some ((0x9000, 0xFA, 514, true), (false, 0x31, 0x77, 0x00)) := by
  decide +kernel

/-- T-N3: NMI does not set I and wraps SP. -/
theorem test_nmi_keeps_i :
    agrees ([], holding { base with pc := 0xC0DE, p := .ofByte 0x20, sp := 0x01, nmiPending := true, nmiEn := true }
      [(0xFFFB, 0x90)], [0x00, 0x00, 0x00, 0xFE, 0x20, 0x9000, 7], [(0x0101, 0xC0), (0x0100, 0xDE), (0x01FF, 0x20)],
      [0xFFFA, 0xFFFB]) = true := by
  decide

/-- T-N4: an NMI edge while disabled, under each policy. -/
theorem test_nmi_disabled (p : NmiPolicy) :
    (match stepWith { Params.hardware with nmiPolicy := p } ({ base with nmiPending := true }.pokeBytes 0x8000 [0xEA]) with
      | .next t => some (t.nmiPending, t.pc, t.cycles)
      | _ => none) = some (decide (p = .hold), 0x8001, 2) := by
  cases p <;> decide

/-- T-Z5 and T-N9: an unassigned opcode halts, changes nothing else, and every later step returns the same fault. -/
theorem test_illegal_opcode :
    let s := { base with a := 0x09 }.pokeBytes 0x8000 [0xFF]
    let t := s.afterStep Params.hardware
    stepResult Params.hardware s = .fault (.illegalOpcode 0x8000 0xFF) t ∧
    t = { s with fault := some (.illegalOpcode 0x8000 0xFF), bus := [.read 0x8000 0xFF] } ∧
    stepResult Params.hardware t = .fault (.illegalOpcode 0x8000 0xFF) t ∧
    (Fault.illegalOpcode 0x8000 0xFF).code = 4 := by
  decide

/-- 30_encoding R56: operand bytes that are not available are a fault, with the bytes before them read. -/
theorem test_incomplete_instruction :
    stepResult { Params.hardware with fetchAvailable := fun a => decide (a.toNat < 0x8002) }
        (base.pokeBytes 0x8000 [0xAD, 0x34]) =
      .fault (.incompleteInstruction 0x8000 0xAD)
        { base.pokeBytes 0x8000 [0xAD, 0x34] with
          fault := some (.incompleteInstruction 0x8000 0xAD), bus := [.read 0x8001 0x34, .read 0x8000 0xAD] } := by
  decide

/-- T-N10: Reset from a halted state in the middle of things, with the vector 8000. -/
theorem test_reset_operation :
    let s := holding { base with a := 0x77, sp := 0x10, svcNmi := true, nmiEn := true, cycOdd := true,
                                 fault := some (.illegalOpcode 0x8000 0x02) } [(0xFFFD, 0x80)]
    s.doReset = { s with a := 0x00, sp := 0xFD, pc := 0x8000, svcNmi := false, nmiEn := false, cycOdd := false,
                         fault := none, cycles := 0, bus := [.read 0xFFFD 0x80, .read 0xFFFC 0x00] } := by
  decide

/-- The host's reset state is what `Reset()` makes of the empty launch image (70_reset R240). -/
theorem test_reset_state : State.reset = { State.reset with a := 0x55, sp := 0x00, nmiEn := true }.doReset := by
  decide

/-- P after reset is 24 (10_state R24). -/
theorem test_reset_status : State.reset.p.toByte = Config.resetP := by
  decide

/-- T-S8: a single 16 KiB bank is mirrored into both halves; the unmapped variant has no byte there. -/
theorem test_mapper_variants :
    let s := holding { base with mapper := .prg16 } [(0x8005, 0x42)]
    s.byteAt 0xC005 = some 0x42 ∧ s.byteAt 0x8005 = some 0x42 ∧
    { base with mapper := .unmapped }.byteAt 0x8005 = none ∧ base.byteAt 0x4018 = none ∧ base.byteAt 0x2000 = none := by
  decide

/-- P4, step 4: a word loaded after reset is the next instruction that runs. -/
theorem test_with_fetch_word :
    (match step (State.reset.withFetchWord 24 0x40148D) with
      | .next t => some (t.dmaPending, t.pc, t.cycles)
      | _ => none) = some (true, 0x0003, 4) := by
  decide

-- Witnesses: for each obligation with hypotheses, values that meet them all, at the ends of their ranges.

open Sys2Proof.Forms

/-- A state about to run the given bytes. -/
def running (bytes : List Byte) : State := base.pokeBytes base.pc bytes

theorem witness_EncodeOfDecodeIsTheBytes : decode [0xAD, 0x34, 0x12, 0xEA] = .ok (.ldaAbs 0x1234) [0xEA] := by
  decide

theorem witness_StatusBitFiveIsHardwired :
    ∀ k : Nat, k ≠ 5 → (0x20 : Byte).getLsbD k = (0x00 : Byte).getLsbD k := by
  intro k hk
  by_cases h : k < 8
  · revert hk
    interval_cases k <;> decide
  · simp [BitVec.getLsbD_of_ge _ k (Nat.le_of_not_lt h)]

theorem witness_PushThenPullReturnsTheByte :
    base.sp = 0xFD ∧ { base with sp := 0x0F }.sp = 0x0F ∧ (List.replicate 16 (0x5A : Byte)).length = 16 := by
  decide

/-- At SP 00, where the next push goes round, the cell above and another one of page 1. -/
theorem witness_StackOperationsStayInPageOne :
    base.cell 0x01FF ≠ base.cell (stackAddr 0x00) ∧ base.cell 0x8000 ≠ base.cell (stackAddr 0xFF) := by
  decide

theorem witness_RamIsMirrored :
    (0x1FFF : Addr).toNat < 0x2000 ∧ (0x07FF : Addr).toNat < 0x2000 ∧
    (0x07FF : Addr).toNat % 0x0800 = (0x1FFF : Addr).toNat % 0x0800 ∧
    (0x0800 : Addr).toNat < 0x2000 ∧ (0x0800 : Addr).toNat % 0x0800 ≠ (0x1FFF : Addr).toNat % 0x0800 := by
  decide

theorem witness_WritesOutsideRamAreDropped : 0x2000 ≤ (0x2000 : Addr).toNat ∧ 0x2000 ≤ (0xFFFF : Addr).toNat := by
  decide

theorem witness_MapperVariantsResolve :
    0x8000 ≤ (0x8000 : Addr).toNat ∧ 0x8000 ≤ (0xC000 : Addr).toNat ∧ base.mapper = .prg32 ∧
    { base with mapper := .prg16 }.mapper = .prg16 ∧ { base with mapper := .unmapped }.mapper = .unmapped ∧
    (∀ a ∈ [(0x2000 : Addr), 0x4014, 0x4018, 0x7FFF], 0x2000 ≤ a.toNat ∧ a.toNat < 0x8000) := by
  refine ⟨by decide, by decide, rfl, rfl, rfl, ?_⟩
  simp

/-- One value per clause, and the neighbours at the ends of the register window. -/
theorem witness_WriteSnoops :
    (0x4014 : Addr).toNat = 0x4014 ∧
    (∀ a ∈ [(0x2000 : Addr), 0x2008, 0x3FF8], 0x2000 ≤ a.toNat ∧ a.toNat < 0x4000 ∧ a.toNat % 8 = 0) ∧
    (∀ a ∈ [(0x1FF8 : Addr), 0x2001, 0x3FFF, 0x4000, 0x4013, 0x4015],
      a.toNat ≠ 0x4014 ∧ ¬ (0x2000 ≤ a.toNat ∧ a.toNat < 0x4000 ∧ a.toNat % 8 = 0)) := by
  refine ⟨rfl, ?_, ?_⟩ <;> simp

theorem witness_ZeroPageModesWrapInPageZero :
    EaMode.zpy 0xFF ∈ [EaMode.zp 0xFF, .zpx 0xFF, .zpy 0xFF] ∧ (Instr.ldxZpy 0xFF).mode = .ZEROPAGE_Y ∧
    (Instr.stxZpy 0xFF).mode = .ZEROPAGE_Y := by
  decide

theorem witness_AbsoluteIndexedModes :
    (EaMode.aby 0xFFF0, (0x20 : Byte)) ∈ [(EaMode.abx 0xFFF0, (0x10 : Byte)), (.aby 0xFFF0, 0x20)] := by
  decide

/-- A pointer at the end of a page, and one inside it. -/
theorem witness_IndirectReadsWithinThePage :
    (0x0200 : Addr).toNat = (0x02FF : Addr).toNat / 256 * 256 + ((0x02FF : Addr).toNat % 256 + 1) % 256 ∧
    (0x0203 : Addr).toNat = (0x0202 : Addr).toNat / 256 * 256 + ((0x0202 : Addr).toNat % 256 + 1) % 256 ∧
    (Instr.jmpInd 0x02FF).mode = .INDIRECT := by
  decide

/-- The pointer at the end of page 0, X = 0. -/
theorem witness_ZeroPagePointerModes :
    (0x00FF : Addr).toNat = ((0xFF : Byte).toNat + base.x.toNat) % 256 ∧
    (0x0000 : Addr).toNat = ((0xFF : Byte).toNat + base.x.toNat + 1) % 256 ∧
    (0x00FF : Addr).toNat = (0xFF : Byte).toNat ∧ (0x0000 : Addr).toNat = ((0xFF : Byte).toNat + 1) % 256 := by
  decide

theorem witness_LoadResult :
    ReadForm.mk (.ldaIzy 0xFF) (.ea (.izy 0xFF)) 5 true ∈ ldaForms 0xFF 0x0000 ∧
    ReadForm.mk (.ldxZpy 0xFF) (.ea (.zpy 0xFF)) 4 false ∈ ldxForms 0xFF 0x0000 ∧
    ReadForm.mk (.ldyAbx 0x12F0) (.ea (.abx 0x12F0)) 4 true ∈ ldyForms 0xFF 0x12F0 := by
  decide

theorem witness_AdcResult : ReadForm.mk (.adcImm 0x7F) (.imm 0x7F) 2 false ∈ adcForms 0x7F 0x0000 := by
  decide

theorem witness_SbcResult : ReadForm.mk (.sbcIzx 0x10) (.ea (.izx 0x10)) 6 false ∈ sbcForms 0x10 0x0000 := by
  decide

theorem witness_LogicResult :
    ReadForm.mk (.andAby 0xFFF0) (.ea (.aby 0xFFF0)) 4 true ∈ andForms 0x00 0xFFF0 ∧
    ReadForm.mk (.oraZp 0x10) (.ea (.zp 0x10)) 3 false ∈ oraForms 0x10 0x0000 ∧
    ReadForm.mk (.eorZpx 0xF0) (.ea (.zpx 0xF0)) 4 false ∈ eorForms 0xF0 0x0000 := by
  decide

theorem witness_CompareResult :
    (ReadForm.mk (.cmpAbs 0x1234) (.ea (.abs 0x1234)) 4 false ∈ cmpForms 0x80 0x1234 ∧ base.a = 0x00) ∧
    (ReadForm.mk (.cpxImm 0x80) (.imm 0x80) 2 false ∈ cpxForms 0x80 0x1234 ∧ base.x = 0x00) ∧
    (ReadForm.mk (.cpyZp 0x80) (.ea (.zp 0x80)) 3 false ∈ cpyForms 0x80 0x1234 ∧ base.y = 0x00) := by
  decide

theorem witness_BitTestResult : ReadForm.mk (.bitAbs 0x0234) (.ea (.abs 0x0234)) 4 false ∈ bitForms 0x10 0x0234 := by
  decide

theorem witness_ShiftResult :
    EaForm.mk (.aslAbx 0x02F0) (.abx 0x02F0) 7 ∈ aslForms 0x10 0x02F0 ∧
    EaForm.mk (.lsrZp 0x10) (.zp 0x10) 5 ∈ lsrForms 0x10 0x02F0 ∧
    EaForm.mk (.rolZpx 0x10) (.zpx 0x10) 6 ∈ rolForms 0x10 0x02F0 ∧
    EaForm.mk (.rorAbs 0x02F0) (.abs 0x02F0) 6 ∈ rorForms 0x10 0x02F0 := by
  decide

theorem witness_IncDecResult :
    EaForm.mk (.incAbs 0x4014) (.abs 0x4014) 6 ∈ incForms 0x10 0x4014 ∧
    EaForm.mk (.decZp 0x10) (.zp 0x10) 5 ∈ decForms 0x10 0x4014 := by
  decide

theorem witness_StoreResult :
    (EaForm.mk (.staIzy 0xFF) (.izy 0xFF) 6 ∈ staForms 0xFF 0x2000 ∧ base.a = 0x00) ∧
    (EaForm.mk (.stxZpy 0xFF) (.zpy 0xFF) 4 ∈ stxForms 0xFF 0x2000 ∧ base.x = 0x00) ∧
    (EaForm.mk (.styAbs 0x2000) (.abs 0x2000) 4 ∈ styForms 0xFF 0x2000 ∧ base.y = 0x00) := by
  decide

/-- Stores at the last RAM address and at the first one beyond it, each with a byte of another cell. -/
theorem witness_StoresChangeOnlyTheirCell :
    let ram := EaForm.mk (.staAbs 0x1FFF) (.abs 0x1FFF) 4
    let device := EaForm.mk (.incAbs 0x2000) (.abs 0x2000) 6
    ram ∈ staForms 0x00 0x1FFF ∧ (∃ t, exec ram.instr base = .next t) ∧ (ram.resolved base).ea.toNat < 0x2000 ∧
    base.cell 0x07FE ≠ base.cell (ram.resolved base).ea ∧
    device ∈ incForms 0x00 0x2000 ∧ (∃ t, exec device.instr base = .next t) ∧
    0x2000 ≤ (device.resolved base).ea.toNat := by
  exact ⟨by decide, ⟨_, rfl⟩, by decide, by decide, by decide, ⟨_, rfl⟩, by decide⟩

/-- Each branch, taken with one status and not taken with its complement. -/
theorem witness_BranchResult :
    let clear : Status := .ofByte 0x00
    let set : Status := .ofByte 0xFF
    (branchForms 0x80 clear).map (fun f => f.2) = [true, false, false, true, false, true, true, false] ∧
    (branchForms 0x80 set).map (fun f => f.2) = [false, true, true, false, true, false, false, true] := by
  decide

theorem witness_JsrThenRtsComesBack :
    ∃ t, exec (.jsrAbs 0x9000) base = .next t ∧
      { t with a := 0x55 }.sp = t.sp ∧ { t with a := 0x55 }.byteAt (stackAddr base.sp) = t.byteAt (stackAddr base.sp) ∧
      { t with a := 0x55 }.byteAt (stackAddr (base.sp - 1)) = t.byteAt (stackAddr (base.sp - 1)) :=
  ⟨_, rfl, rfl, rfl, rfl⟩

theorem witness_FlagInstructionResult :
    (Instr.sei, { base.p with i := true }) ∈
      [(Instr.clc, { base.p with c := false }), (.cld, { base.p with d := false }), (.cli, { base.p with i := false }),
       (.clv, { base.p with v := false }), (.sec, { base.p with c := true }), (.sed, { base.p with d := true }),
       (.sei, { base.p with i := true })] := by
  decide

theorem witness_BrkThenRtiResumes :
    ∃ t, exec .brk { base with sp := 0x01 } = .next t ∧ { t with x := 0x55 }.sp = t.sp ∧
      ∀ k ∈ [(0x01 : Byte), 0x01 - 1, 0x01 - 2], { t with x := 0x55 }.byteAt (stackAddr k) = t.byteAt (stackAddr k) :=
  ⟨_, rfl, rfl, fun _ _ => rfl⟩

/-- NOP is outside every list of writers; BRK and LSR A are inside some. -/
theorem witness_RegistersChangeOnlyByTheirWriters :
    (∃ t, exec .nop base = .next t) ∧ Instr.nop.mode ≠ .ACCUMULATOR ∧
    Instr.nop.mnemonic ∉ [Mnemonic.LDA, .ADC, .SBC, .AND, .ORA, .EOR, .PLA, .TXA, .TYA] ∧
    Instr.nop.mnemonic ∉ [Mnemonic.LDX, .TAX, .TSX, .INX, .DEX] ∧
    Instr.nop.mnemonic ∉ [Mnemonic.LDY, .TAY, .INY, .DEY] ∧
    Instr.nop.mnemonic ∉ [Mnemonic.PHA, .PHP, .PLA, .PLP, .JSR, .RTS, .RTI, .BRK, .TXS] ∧
    Instr.nop.mnemonic ∉ [Mnemonic.BCC, .BCS, .BEQ, .BNE, .BMI, .BPL, .BVC, .BVS, .JMP, .JSR, .RTS, .RTI, .BRK] := by
  exact ⟨⟨_, rfl⟩, by decide⟩

theorem witness_FlagsChangeOnlyByTheirWriters :
    (∃ t, exec (.staAbs 0x0200) base = .next t) ∧
    (Instr.staAbs 0x0200).mnemonic ∉ [Mnemonic.ADC, .SBC, .CMP, .CPX, .CPY, .ASL, .LSR, .ROL, .ROR, .CLC, .SEC, .PLP, .RTI] ∧
    (Instr.staAbs 0x0200).mnemonic ∉ [Mnemonic.LDA, .LDX, .LDY, .ADC, .SBC, .AND, .ORA, .EOR, .CMP, .CPX, .CPY, .BIT, .ASL,
      .LSR, .ROL, .ROR, .INC, .DEC, .INX, .INY, .DEX, .DEY, .PLA, .TAX, .TAY, .TXA, .TYA, .TSX, .PLP, .RTI] ∧
    (Instr.staAbs 0x0200).mnemonic ∉ [Mnemonic.SEI, .CLI, .BRK, .PLP, .RTI] ∧
    (Instr.staAbs 0x0200).mnemonic ∉ [Mnemonic.SED, .CLD, .PLP, .RTI] ∧
    (Instr.staAbs 0x0200).mnemonic ∉ [Mnemonic.PLP, .RTI] ∧
    (Instr.staAbs 0x0200).mnemonic ∉ [Mnemonic.ADC, .SBC, .BIT, .CLV, .PLP, .RTI] := by
  exact ⟨⟨_, rfl⟩, by decide⟩

theorem witness_InstructionsLeaveTheController :
    (∃ t, exec .rolAcc base = .next t) ∧ Instr.rolAcc.mnemonic ≠ .RTI ∧ Instr.rolAcc.mode = .ACCUMULATOR ∧
    (∃ t, exec .pha base = .next t) ∧ Instr.pha.mnemonic ∉ storeWriters := by
  exact ⟨⟨_, rfl⟩, by decide, by decide, ⟨_, rfl⟩, by decide⟩

/-- SP = 01, so that the third byte of BRK goes round to `0x01FF`; the byte watched is the next one down. -/
theorem witness_MemoryChangesOnlyByStores :
    let s := { base with sp := 0x01 }
    (∃ t, exec .rorAcc s = .next t) ∧ writesNoMemory .rorAcc = true ∧ writesNoMemory (.ldaAbs 0x0200) = true ∧
    (∃ t, exec .php s = .next t) ∧ s.cell 0x01FE ≠ s.cell (stackAddr s.sp) ∧
    (∃ t, exec (.jsrAbs 0x9000) s = .next t) ∧ (∀ k ∈ [s.sp, s.sp - 1], s.cell 0x01FE ≠ s.cell (stackAddr k)) ∧
    (∃ t, exec .brk s = .next t) ∧ (∀ k ∈ [s.sp, s.sp - 1, s.sp - 2], s.cell 0x01FE ≠ s.cell (stackAddr k)) := by
  exact ⟨⟨_, rfl⟩, by decide, by decide, ⟨_, rfl⟩, by decide, ⟨_, rfl⟩, by decide, ⟨_, rfl⟩, by decide⟩

/-- A marked form that crosses a page, and a branch that is taken across one. -/
theorem witness_CyclesFollowTheDispatchTable :
    let s := { base with y := 0x20 }
    (∃ t, exec (.ldaAby 0x12F0) s = .next t) ∧ (dispatch (Instr.ldaAby 0x12F0).opcode).isSome = true ∧
    crossedOf (.ldaAby 0x12F0) s = true ∧
    (∃ t, exec (.bccRel 0x80) s = .next t) ∧ branchOf (.bccRel 0x80) s = (true, true) := by
  exact ⟨⟨_, rfl⟩, by decide, by decide, ⟨_, rfl⟩, by decide⟩

theorem witness_StepRunsTheDecodedInstruction :
    let s := running [0xAD, 0x34, 0x12]
    RunsInstruction s ∧
    decode (fetchBytes 3 s.pc (s.begin.gateNmi Config.nmiDisabledPolicy)).1 = .ok (.ldaAbs 0x1234) [] := by
  exact ⟨⟨by decide, by decide, by decide⟩, by decide⟩

theorem witness_ArbitrationOrder :
    { base with fault := some (.illegalOpcode 0x8000 0x02) }.fault = some (.illegalOpcode 0x8000 0x02) ∧
    (nmiAndDma.fault = none ∧ nmiAndDma.nmiPending = true ∧ nmiAndDma.nmiEn = true) ∧
    { nmiAndDma with nmiEn := false }.fault = none ∧
    ({ nmiAndDma with nmiEn := false }.nmiPending && { nmiAndDma with nmiEn := false }.nmiEn) = false ∧
    { nmiAndDma with nmiEn := false }.dmaPending = true := by
  decide

theorem witness_NmiService : nmiAndDma.fault = none ∧ nmiAndDma.nmiPending = true ∧ nmiAndDma.nmiEn = true := by
  decide

theorem witness_NmiThenRtiRestores :
    nmiAndDma.fault = none ∧ nmiAndDma.nmiPending = true ∧ nmiAndDma.nmiEn = true ∧
    ∃ t, step nmiAndDma = .next t ∧ { t with x := 0x55 }.sp = t.sp ∧
      ∀ k ∈ [nmiAndDma.sp, nmiAndDma.sp - 1, nmiAndDma.sp - 2],
        { t with x := 0x55 }.byteAt (stackAddr k) = t.byteAt (stackAddr k) :=
  ⟨by decide, by decide, by decide, _, rfl, rfl, fun _ _ => rfl⟩

theorem witness_DisabledNmiFollowsThePolicy :
    let s := { base with nmiPending := true }
    s.fault = none ∧ s.nmiPending = true ∧ s.nmiEn = false := by
  decide

/-- A page of RAM (the copied byte is a stored one) and a pending DMA on an odd cycle. -/
theorem witness_OamDmaCopiesThePage :
    let s := { nmiAndDma with nmiPending := false, cycOdd := true }
    s.fault = none ∧ (s.nmiPending && s.nmiEn) = false ∧ s.dmaPending = true ∧
    s.byteAt (word 0xFF s.dmaPage) = some 0x77 := by
  decide

/-- Both sides of the equivalence: an unassigned byte at PC, and an assigned one. -/
theorem witness_OnlyAnIllegalOpcodeFaults :
    (∀ a, Params.hardware.fetchAvailable a = true) ∧
    ((running [0x02]).fault = none ∧ RunsInstruction (running [0x02]) ∧
      dispatch ((running [0x02]).answer (running [0x02]).pc) = none) ∧
    ((running [0xEA]).fault = none ∧ (dispatch ((running [0xEA]).answer (running [0xEA]).pc)).isSome = true) := by
  exact ⟨fun _ => rfl, ⟨by decide, ⟨by decide, by decide, by decide⟩, by decide⟩, by decide, by decide⟩

/-- No byte available from `0x8000` on, and none from the last operand byte of LDA ABSOLUTE on. -/
theorem witness_MissingInstructionBytesFault :
    let upTo := fun n : Nat => { Params.hardware with fetchAvailable := fun a => decide (a.toNat < n) }
    let s := running [0xAD, 0x34, 0x12]
    RunsInstruction s ∧ (upTo 0x8000).fetchAvailable s.pc = false ∧
    (upTo 0x8002).fetchAvailable s.pc = true ∧ (dispatch (s.answer s.pc)).map (fun r => width r.mode) = some 3 ∧
    (upTo 0x8002).fetchAvailable (s.pc + BitVec.ofNat 16 1) = true ∧
    (upTo 0x8002).fetchAvailable (s.pc + BitVec.ofNat 16 2) = false := by
  exact ⟨⟨by decide, by decide, by decide⟩, by decide, by decide, by decide, by decide, by decide⟩

theorem witness_HaltedUntilReset :
    { base with fault := some (.illegalOpcode 0x8000 0x02) }.fault = some (.illegalOpcode 0x8000 0x02) ∧
    Event.reset ∉ [Event.step, .raiseNmi, .step] := by
  decide

theorem witness_CyclesReturnedAndParity :
    (∃ t, exec (.incAbx 0x0200) base = .next t) ∧ ∃ t, step nmiAndDma = .next t :=
  ⟨⟨_, rfl⟩, ⟨_, rfl⟩⟩

/-- RTI in the service state leaves it, and an NMI service enters it. -/
theorem witness_OnlyRtiLeavesServicingNmi :
    { running [0x40] with svcNmi := true }.svcNmi = true ∧
    ({ running [0x40] with svcNmi := true }.afterStep Params.hardware).svcNmi = false ∧
    nmiAndDma.svcNmi = false ∧ (nmiAndDma.afterStep Params.hardware).svcNmi = true := by
  decide

theorem witness_NothingChangesRom : 0x8000 ≤ (0x8000 : Addr).toNat ∧ 0x8000 ≤ (0xFFFF : Addr).toNat := by
  decide

/-- A state with a listed byte has the invariant, and its step answers a next state. -/
theorem witness_EveryStepKeepsTheInvariant :
    Inv (running [0xEA]) ∧ ∃ t, step (running [0xEA]) = .next t := by
  refine ⟨⟨⟨by decide, by decide, by decide, by decide⟩, ?_, .inl rfl⟩, ⟨_, rfl⟩⟩
  intro f hf
  have h : (running [0xEA]).fault = none := by decide
  exact absurd (h.symm.trans hf) (by simp)

/-- The event clause: a state with the invariant whose step faults, and a launch image that is sound. -/
theorem witness_EveryStepKeepsTheInvariant_events :
    Inv (running [0x02]) ∧ ((running [0x02]).after Params.hardware .step).fault = some (.illegalOpcode 0x8000 0x02) ∧
    MemorySound (running [0x02]) := by
  have hm : MemorySound (running [0x02]) := ⟨by decide, by decide, by decide, by decide⟩
  refine ⟨⟨hm, ?_, .inl rfl⟩, by decide, hm⟩
  intro f hf
  have h : (running [0x02]).fault = none := by decide
  exact absurd (h.symm.trans hf) (by simp)

/-- A byte of RAM behind its last alias, a byte of ROM, a device register and an address in no region. -/
theorem witness_ReadsAnswerTheStoredByte :
    let s := holding base [(0x07FF, 0x5C), (0xFFFF, 0x42)]
    s.byteAt 0x1FFF = some 0x5C ∧ s.byteAt 0xFFFF = some 0x42 ∧ s.byteAt 0x2000 = none ∧ s.byteAt 0x4018 = none := by
  decide

/-- A halted state that a run reaches: an unassigned opcode behind the reset vector. -/
theorem witness_ReachableStatesHaveTheInvariant :
    ∃ s, Reachable Params.hardware s ∧ s.fault = some (.illegalOpcode 0x0000 0x02) := by
  refine ⟨runEvents Params.hardware [.step] (holding State.reset [(0x0000, 0x02)]).doReset,
    ⟨_, ⟨by decide, by decide, by decide, by decide⟩, [.step], rfl⟩, by decide⟩

end Sys2Proof.Tests
end

/-! The cycle count of every instruction and of every step, and the parity that a step adds to `cyc_odd` (00_scope R5,
10_state R20, 70_reset R250, R254). -/

namespace Sys2Proof.Machine

theorem oddCount_eq_decide (n : Nat) : oddCount n = decide (n % 2 = 1) := rfl

theorem penalty_le_toNat (pen crossed : Bool) : penalty pen crossed ≤ pen.toNat := by
  cases pen <;> cases crossed <;> decide

/-- The range of an instruction's cycles (70_reset R250): a fixed count, in the classes that have no add-on. -/
theorem cycles_bounds_of_charge {u t : State} {n : Nat} (hlo : 2 ≤ n) (hhi : n ≤ 7)
    (h : (Host.Outcome.next (u.charge n) : Host.Outcome State Fault Refusal) = .next t) : 2 ≤ t.cycles ∧ t.cycles ≤ 7 := by
  cases h
  exact ⟨hlo, hhi⟩

theorem readClass_cycles_bounds {effect : Byte → State → State} {src : Source} {base : Nat} {pen : Bool} {s t : State}
    (hlo : 2 ≤ base) (hhi : base + pen.toNat ≤ 7) (h : readClass effect src base pen s = .next t) :
    2 ≤ t.cycles ∧ t.cycles ≤ 7 := by
  obtain ⟨f, -, rfl⟩ := readClass_next h
  have hp := penalty_le_toNat pen f.crossed
  rw [State.charge_cycles]
  omega

/-- A branch costs 2 cycles, 3 when it is taken, 4 when it is taken to another page (44_branch R135). -/
theorem branchClass_cycles {taken : Bool} {off : Byte} {s t : State} (h : branchClass taken off s = .next t) :
    t.cycles = if taken then
      3 + penalty true (pageCrossed (s.advance 2).pc (branchTarget (s.advance 2).pc off)) else 2 := by
  cases taken <;> cases h <;> rfl

theorem branchClass_cycles_bounds {taken : Bool} {off : Byte} {s t : State} (h : branchClass taken off s = .next t) :
    2 ≤ t.cycles ∧ t.cycles ≤ 7 := by
  have hp := penalty_le_toNat true (pageCrossed (s.advance 2).pc (branchTarget (s.advance 2).pc off))
  rw [Bool.toNat_true] at hp
  rw [branchClass_cycles h]
  split <;> omega

/-- Every instruction costs 2 to 7 cycles: by its class, with the base cycles and the penalty mark of its form. -/
theorem exec_cycles_bounds {i : Instr} {s t : State} (h : exec i s = .next t) : 2 ≤ t.cycles ∧ t.cycles ≤ 7 := by
  cases i with
  | bccRel _ | bcsRel _ | beqRel _ | bneRel _ | bmiRel _ | bplRel _ | bvcRel _ | bvsRel _ =>
    exact branchClass_cycles_bounds h
  | aslZp _ | aslZpx _ | aslAbs _ | aslAbx _ | lsrZp _ | lsrZpx _ | lsrAbs _ | lsrAbx _ | rolZp _ | rolZpx _ | rolAbs _
  | rolAbx _ | rorZp _ | rorZpx _ | rorAbs _ | rorAbx _ | incZp _ | incZpx _ | incAbs _ | incAbx _ | decZp _ | decZpx _
  | decAbs _ | decAbx _ | aslAcc | lsrAcc | rolAcc | rorAcc | staZp _ | staZpx _ | staAbs _ | staAbx _ | staAby _ | staIzx _
  | staIzy _ | stxZp _ | stxZpy _ | stxAbs _ | styZp _ | styZpx _ | styAbs _ | jmpAbs _ | jmpInd _ | jsrAbs _ | rts | rti
  | pha | php | pla | plp | inx | iny | dex | dey | tax | tay | txa | tya | tsx | txs | clc | cld | cli | clv | sec | sed | sei
  | brk | nop => exact cycles_bounds_of_charge (by decide) (by decide) h
  | _ => exact readClass_cycles_bounds (by decide) (by decide) h

@[simp] theorem resolve_cycOdd (m : EaMode) (s : State) : (resolve m s).state.cycOdd = s.cycOdd := by
  obtain h | ⟨ptr, h⟩ := resolve_state m s
  · rw [h]
  · rw [h, readPointer_state, State.afterRead_cycOdd, State.afterRead_cycOdd]

@[simp] theorem readSource_cycOdd (src : Source) (s : State) : (readSource src s).state.cycOdd = s.cycOdd := by
  cases src with
  | imm v => rfl
  | ea m => exact resolve_cycOdd m s

theorem readClass_cycOdd {effect : Byte → State → State} {src : Source} {base : Nat} {pen : Bool} {s t : State}
    (h : readClass effect src base pen s = .next t) (he : ∀ v s, (effect v s).cycOdd = s.cycOdd) :
    t.cycOdd = s.cycOdd := by
  obtain ⟨f, rfl, rfl⟩ := readClass_next h
  rw [State.charge_cycOdd, he, readSource_cycOdd, State.advance_cycOdd]

theorem writeClass_cycOdd {value : State → Byte} {m : EaMode} {base : Nat} {s t : State}
    (h : writeClass value m base s = .next t) : t.cycOdd = s.cycOdd := by
  obtain ⟨r, rfl, rfl⟩ := writeClass_next h
  simp

theorem rmwClass_cycOdd {op : Byte → Status → Byte × Status} {m : EaMode} {base : Nat} {s t : State}
    (h : rmwClass op m base s = .next t) : t.cycOdd = s.cycOdd := by
  obtain ⟨r, out, rfl, rfl, rfl⟩ := rmwClass_next h
  simp

theorem branchClass_cycOdd {taken : Bool} {off : Byte} {s t : State} (h : branchClass taken off s = .next t) :
    t.cycOdd = s.cycOdd := by
  obtain ⟨pc, n, rfl⟩ := branchClass_next h
  rfl

@[simp] theorem State.enter_cycOdd (s : State) (e : Entry) (ret : Addr) : (s.enter e ret).cycOdd = s.cycOdd := by
  obtain ⟨-, -, -, -, -, -, -, hodd, -⟩ := s.enter_frame e ret
  exact hodd

@[simp] theorem State.pushWord_cycOdd (s : State) (w : Addr) : (s.pushWord w).cycOdd = s.cycOdd := by
  simp [State.pushWord]

@[simp] theorem State.pullWord_cycOdd (s : State) : s.pullWord.2.cycOdd = s.cycOdd := by
  simp [State.pullWord]

@[simp] theorem State.leave_cycOdd (s : State) : s.leave.cycOdd = s.cycOdd := by
  simp [State.leave]

@[simp] theorem callTo_cycOdd (w : Addr) (s : State) : (callTo w s).cycOdd = s.cycOdd := by
  simp [callTo]

@[simp] theorem returnFrom_cycOdd (s : State) : (returnFrom s).cycOdd = s.cycOdd := by
  simp [returnFrom]

theorem cycOdd_of_next {s t u : State} (h : (Host.Outcome.next u : Host.Outcome State Fault Refusal) = .next t)
    (hu : u.cycOdd = s.cycOdd) : t.cycOdd = s.cycOdd := by
  cases h
  exact hu

theorem execBrk_cycOdd {s t : State} (h : execBrk s = .next t) : t.cycOdd = s.cycOdd := by
  rw [← Host.Outcome.next.inj h, State.charge_cycOdd, State.enter_cycOdd]

theorem execJsrAbs_cycOdd {w : Addr} {s t : State} (h : execJsrAbs w s = .next t) : t.cycOdd = s.cycOdd := by
  rw [← Host.Outcome.next.inj h, State.charge_cycOdd, callTo_cycOdd]

/-- No instruction writes the parity latch; the end of the step does (60_exceptions R200). -/
theorem exec_cycOdd {i : Instr} {s t : State} (h : exec i s = .next t) : t.cycOdd = s.cycOdd := by
  cases i with
  | bccRel _ | bcsRel _ | beqRel _ | bneRel _ | bmiRel _ | bplRel _ | bvcRel _ | bvsRel _ => exact branchClass_cycOdd h
  | staZp _ | staZpx _ | staAbs _ | staAbx _ | staAby _ | staIzx _ | staIzy _ | stxZp _ | stxZpy _ | stxAbs _ | styZp _
  | styZpx _ | styAbs _ => exact writeClass_cycOdd h
  | aslZp _ | aslZpx _ | aslAbs _ | aslAbx _ | lsrZp _ | lsrZpx _ | lsrAbs _ | lsrAbx _ | rolZp _ | rolZpx _ | rolAbs _
  | rolAbx _ | rorZp _ | rorZpx _ | rorAbs _ | rorAbx _ | incZp _ | incZpx _ | incAbs _ | incAbx _ | decZp _ | decZpx _
  | decAbs _ | decAbx _ => exact rmwClass_cycOdd h
  | brk => exact execBrk_cycOdd h
  | jsrAbs w => exact execJsrAbs_cycOdd h
  | rts => exact cycOdd_of_next h (returnFrom_cycOdd (s.advance 1))
  | rti => exact cycOdd_of_next h (State.leave_cycOdd (s.advance 1))
  | pha => exact cycOdd_of_next h (State.push_cycOdd (s.advance 1) s.a)
  | php => exact cycOdd_of_next h (State.push_cycOdd (s.advance 1) s.p.imageSet)
  | pla | plp | jmpAbs _ | jmpInd _ | aslAcc | lsrAcc | rolAcc | rorAcc | inx | iny | dex | dey | tax | tay | txa | tya | tsx
  | txs | clc | cld | cli | clv | sec | sed | sei | nop => exact cycOdd_of_next h rfl
  | _ => exact readClass_cycOdd h fun _ _ => rfl

/-- A completed instruction step: what was fetched ran, and its count was added to the parity (60_exceptions R201). -/
theorem executeInstruction_next {k : Params} {s t : State} (h : executeInstruction k s = .next t) :
    ∃ i u v, fetchInstr k s = .instr i u ∧ exec i u = .next v ∧ t = v.account := by
  unfold executeInstruction at h
  cases hf : fetchInstr k s with
  | stop f u => simp [hf] at h
  | instr i u =>
    obtain ⟨v, hv⟩ := exec_answers_next i u
    simp only [hf, hv, StepResult.next.injEq] at h
    exact ⟨i, u, v, rfl, hv, h.symm⟩

theorem stepWith_next {k : Params} {s t : State} : stepWith k s = .next t ↔ stepResult k s = .next t := by
  unfold stepWith
  cases stepResult k s <;> simp

@[simp] theorem State.gateNmi_cycOdd (policy : NmiPolicy) (s : State) : (s.gateNmi policy).cycOdd = s.cycOdd := by
  rw [gateNmi_eq]

@[simp] theorem State.serviceNmi_cycles (s : State) : s.serviceNmi.cycles = 7 := rfl

@[simp] theorem State.serviceNmi_cycOdd (s : State) : s.serviceNmi.cycOdd = s.cycOdd :=
  s.enter_cycOdd .nmi s.pc

@[simp] theorem State.serviceDma_cycles (s : State) : s.serviceDma.cycles = if s.cycOdd then 514 else 513 := rfl

@[simp] theorem State.serviceDma_cycOdd (s : State) : s.serviceDma.cycOdd = s.cycOdd := by
  obtain ⟨oam, answers, bus, h⟩ := s.serviceDma_frame
  rw [h]

theorem fetchInstr_cycOdd {k : Params} {s t : State} {i : Instr} (h : fetchInstr k s = .instr i t) :
    t.cycOdd = s.cycOdd := by
  obtain ⟨answers, bus, rfl⟩ := fetchInstr_instr h
  rfl

/-- A completed step ends by adding a count of 2 to 514 to the parity it began with: 7 for an NMI service, 513 or 514 for
a DMA, 2 to 7 for an instruction (60_exceptions R200; 70_reset R250, R254). -/
theorem stepResult_next {k : Params} {s t : State} (h : stepResult k s = .next t) :
    ∃ u : State, t = u.account ∧ u.cycOdd = s.cycOdd ∧ 2 ≤ u.cycles ∧ u.cycles ≤ 514 := by
  obtain ⟨f, -, hr⟩ | ⟨-, -, -, hr⟩ | ⟨-, -, -, hr⟩ | ⟨-, -, -, hr⟩ := stepResult_cases k s <;> rw [hr] at h
  case inl => cases h
  case inr.inl => exact ⟨s.begin.serviceNmi, (StepResult.next.inj h).symm, by simp, by simp, by simp⟩
  case inr.inr.inl =>
    refine ⟨(s.begin.gateNmi k.nmiPolicy).serviceDma, (StepResult.next.inj h).symm, by simp, ?_⟩
    rw [State.serviceDma_cycles]
    split <;> omega
  case inr.inr.inr =>
    obtain ⟨i, u, v, hfetch, hexec, rfl⟩ := executeInstruction_next h
    have hodd : v.cycOdd = s.cycOdd := by
      rw [exec_cycOdd hexec, fetchInstr_cycOdd hfetch, State.gateNmi_cycOdd, State.begin_cycOdd]
    have ⟨hlo, hhi⟩ := exec_cycles_bounds hexec
    exact ⟨v, rfl, hodd, hlo, by omega⟩

/-- Settles O53: an instruction by its class, a step by the stage that served it. -/
theorem cyclesReturnedAndParity : Obligations.CyclesReturnedAndParity := by
  refine ⟨fun _ _ _ => exec_cycles_bounds, fun s t h => ?_⟩
  obtain ⟨u, rfl, hodd, hlo, hhi⟩ := stepResult_next (stepWith_next.mp h)
  refine ⟨hlo, hhi, ?_⟩
  rw [State.account_cycOdd, hodd, oddCount_eq_decide, State.account_cycles]

end Sys2Proof.Machine

/-! What an instruction can write, said once for all 151 forms: the reads of its operand, the work of its mnemonic, the
count of cycles. -/

namespace Sys2Proof.Machine

/-- The work of a mnemonic on the state whose operand has been read: what it can write, with arbitrary values where the
frames do not need the exact one. Mnemonics that write the same fields share a constructor. JSR and BRK push from a state
whose PC is still `pc0`, so their work sets PC first. -/
inductive Work : Mnemonic → Mode → State → State → Prop
  | loadA {m mode u} (hm : m ∈ [.LDA, .AND, .ORA, .EOR, .TXA, .TYA]) (v : Byte) :
      Work m mode u { u with a := v, p := u.p.setZN v }
  | loadX {m mode u} (hm : m ∈ [.LDX, .TAX, .TSX, .INX, .DEX]) (v : Byte) :
      Work m mode u { u with x := v, p := u.p.setZN v }
  | loadY {m mode u} (hm : m ∈ [.LDY, .TAY, .INY, .DEY]) (v : Byte) :
      Work m mode u { u with y := v, p := u.p.setZN v }
  | add {m mode u} (hm : m ∈ [.ADC, .SBC]) (v : Byte) : Work m mode u (adcEffect v u)
  | compare {m mode u} (hm : m ∈ [.CMP, .CPX, .CPY]) (r v : Byte) :
      Work m mode u { u with p := u.p.afterCompare r v }
  | bitTest {mode u} (v : Byte) : Work .BIT mode u (bitEffect v u)
  | store {m mode u} (hm : m ∈ [.STA, .STX, .STY]) (hmode : mode ≠ .ACCUMULATOR) (addr : Addr) (v : Byte) :
      Work m mode u (u.memWrite addr v)
  | shift {m mode u} (hm : m ∈ [.ASL, .LSR, .ROL, .ROR]) (hmode : mode ≠ .ACCUMULATOR) (addr : Addr) (v : Byte)
      (c : Bool) : Work m mode u { u.memWrite addr v with p := { u.p with c := c }.setZN v }
  | shiftA {m u} (hm : m ∈ [.ASL, .LSR, .ROL, .ROR]) (v : Byte) (c : Bool) :
      Work m .ACCUMULATOR u { u with a := v, p := { u.p with c := c }.setZN v }
  | count {m mode u} (hm : m ∈ [.INC, .DEC]) (hmode : mode ≠ .ACCUMULATOR) (addr : Addr) (v : Byte) :
      Work m mode u { u.memWrite addr v with p := u.p.setZN v }
  | jump {m mode u} (hm : m ∈ [.BCC, .BCS, .BEQ, .BNE, .BMI, .BPL, .BVC, .BVS, .JMP]) (pc : Addr) :
      Work m mode u { u with pc := pc }
  | call {mode u} (pc w : Addr) (hi lo : Byte) :
      Work .JSR mode u { ({ u with pc := pc }.push hi).push lo with pc := w }
  | returnSub {mode u} (sp : Byte) (pc : Addr) (answers : Nat) (bus : List BusEvent) :
      Work .RTS mode u { u with sp := sp, pc := pc, answers := answers, bus := bus }
  | returnInt {mode u} (sp : Byte) (pc : Addr) (p : Status) (answers : Nat) (bus : List BusEvent) :
      Work .RTI mode u { u with sp := sp, pc := pc, p := p, svcNmi := false, answers := answers, bus := bus }
  | push {m mode u} (hm : m ∈ [.PHA, .PHP]) (v : Byte) : Work m mode u (u.push v)
  | pullA {mode u} : Work .PLA mode u (pullA u)
  | pullP {mode u} : Work .PLP mode u (pullP u)
  | setSp {mode u} (v : Byte) : Work .TXS mode u { u with sp := v }
  | setC {m mode u} (hm : m ∈ [.CLC, .SEC]) (c : Bool) : Work m mode u { u with p := { u.p with c := c } }
  | setD {m mode u} (hm : m ∈ [.CLD, .SED]) (d : Bool) : Work m mode u { u with p := { u.p with d := d } }
  | setI {m mode u} (hm : m ∈ [.CLI, .SEI]) (i : Bool) : Work m mode u { u with p := { u.p with i := i } }
  | clearV {mode u} : Work .CLV mode u { u with p := { u.p with v := false } }
  | trap {mode u} (pc target : Addr) (hi lo image : Byte) (answers : Nat) (bus : List BusEvent) :
      Work .BRK mode u { Entry.brk.mark ((({ u with pc := pc }.push hi).push lo).push image) with
        pc := target, answers := answers, bus := bus }
  | none {mode u} : Work .NOP mode u u

/-- An instruction of mnemonic `m` and mode `mode` takes `s` to `t`: PC goes to `npc`, reading the operand changes only the
count of free answers and the transactions, then comes the mnemonic's work, then the count of cycles is recorded. -/
def Runs (m : Mnemonic) (mode : Mode) (s t : State) : Prop :=
  ∃ answers bus w n, Work m mode { s.advance (width mode) with answers := answers, bus := bus } w ∧ t = w.charge n

/-- Resolving an operand changes only the count of free answers and the transactions. -/
theorem resolve_reads (m : EaMode) (s : State) :
    ∃ answers bus, (resolve m s).state = { s with answers := answers, bus := bus } := by
  obtain h | ⟨ptr, h⟩ := resolve_state m s <;> rw [h]
  · exact ⟨s.answers, s.bus, rfl⟩
  · rw [readPointer_state]
    exact ⟨_, _, rfl⟩

/-- Reading an operand changes only the count of free answers and the transactions. -/
theorem readSource_reads (src : Source) (s : State) :
    ∃ answers bus, (readSource src s).state = { s with answers := answers, bus := bus } := by
  cases src with
  | imm v => exact ⟨s.answers, s.bus, rfl⟩
  | ea m =>
    obtain ⟨answers, bus, h⟩ := resolve_reads m s
    exact ⟨_, _, by rw [readSource, h]; rfl⟩

theorem EaMode.mode_ne_accumulator (m : EaMode) : m.mode ≠ .ACCUMULATOR := by
  cases m <;> exact Mode.noConfusion

theorem readClass_runs {m : Mnemonic} {effect : Byte → State → State} {src : Source} {base : Nat} {pen : Bool}
    {s t : State} (he : ∀ v u, Work m src.mode u (effect v u)) (h : readClass effect src base pen s = .next t) :
    Runs m src.mode s t := by
  obtain ⟨f, hf, rfl⟩ := readClass_next h
  obtain ⟨answers, bus, hr⟩ := readSource_reads src (s.advance (width src.mode))
  rw [← hf] at hr
  exact ⟨answers, bus, _, _, hr ▸ he f.value f.state, rfl⟩

theorem writeClass_runs {m : Mnemonic} (hm : m ∈ [.STA, .STX, .STY]) {value : State → Byte} {ea : EaMode} {base : Nat}
    {s t : State} (h : writeClass value ea base s = .next t) : Runs m ea.mode s t := by
  obtain ⟨r, hr, rfl⟩ := writeClass_next h
  obtain ⟨answers, bus, hs⟩ := resolve_reads ea (s.advance (width ea.mode))
  rw [← hr] at hs
  exact ⟨answers, bus, _, _, hs ▸ .store hm ea.mode_ne_accumulator r.ea (value s), rfl⟩

/-- A read-modify-write form runs its mnemonic's work, where that work is the operation's write and flags. -/
theorem rmwClass_runs {m : Mnemonic} {op : Byte → Status → Byte × Status} {ea : EaMode} {base : Nat} {s t : State}
    (he : ∀ (u : State) (addr : Addr) (v : Byte),
      Work m ea.mode u { u.memWrite addr (op v u.p).1 with p := (op v u.p).2 })
    (h : rmwClass op ea base s = .next t) : Runs m ea.mode s t := by
  obtain ⟨r, out, hr, rfl, rfl⟩ := rmwClass_next h
  obtain ⟨answers, bus, hs⟩ := resolve_reads ea (s.advance (width ea.mode))
  rw [← hr] at hs
  have hw := he (r.state.afterRead r.ea) r.ea (r.state.answer r.ea)
  rw [hs] at hw ⊢
  exact ⟨_, _, _, _, hw, rfl⟩

theorem shift_runs {m : Mnemonic} (hm : m ∈ [.ASL, .LSR, .ROL, .ROR]) {op : Byte → Status → Byte × Status}
    (hop : ∀ v p, ∃ c, (op v p).2 = { p with c := c }.setZN (op v p).1) {ea : EaMode} {base : Nat} {s t : State}
    (h : rmwClass op ea base s = .next t) : Runs m ea.mode s t := by
  refine rmwClass_runs (fun u addr v => ?_) h
  obtain ⟨c, hc⟩ := hop v u.p
  exact hc ▸ .shift hm ea.mode_ne_accumulator addr _ c

theorem count_runs {m : Mnemonic} (hm : m ∈ [.INC, .DEC]) {op : Byte → Status → Byte × Status}
    (hop : ∀ v p, (op v p).2 = p.setZN (op v p).1) {ea : EaMode} {base : Nat} {s t : State}
    (h : rmwClass op ea base s = .next t) : Runs m ea.mode s t :=
  rmwClass_runs (fun u addr v => hop v u.p ▸ .count hm ea.mode_ne_accumulator addr _) h

theorem accClass_runs {m : Mnemonic} (hm : m ∈ [.ASL, .LSR, .ROL, .ROR]) {op : Byte → Status → Byte × Status}
    (hop : ∀ v p, ∃ c, (op v p).2 = { p with c := c }.setZN (op v p).1) {base : Nat} {s t : State}
    (h : accClass op base s = .next t) : Runs m .ACCUMULATOR s t := by
  obtain ⟨c, hc⟩ := hop s.a s.p
  cases h
  exact ⟨_, _, _, _, .shiftA hm (op s.a s.p).1 c, by rw [hc]; rfl⟩

theorem implicitClass_runs {m : Mnemonic} {effect : State → State} {base : Nat} {s t : State}
    (he : ∀ u, Work m .IMPLICIT u (effect u)) (h : implicitClass effect base s = .next t) : Runs m .IMPLICIT s t :=
  ⟨s.answers, s.bus, _, _, he (s.advance 1), implicitClass_next h⟩

theorem branchClass_runs {m : Mnemonic} (hm : m ∈ [.BCC, .BCS, .BEQ, .BNE, .BMI, .BPL, .BVC, .BVS, .JMP]) {taken : Bool}
    {off : Byte} {s t : State} (h : branchClass taken off s = .next t) : Runs m .RELATIVE s t := by
  obtain ⟨pc, n, rfl⟩ := branchClass_next h
  exact ⟨s.answers, s.bus, _, n, .jump hm pc, rfl⟩

theorem jumpTo_runs {ea : EaMode} {base : Nat} {s t : State} (h : jumpTo ea base s = .next t) :
    Runs .JMP ea.mode s t := by
  obtain ⟨answers, bus, hs⟩ := resolve_reads ea (s.advance (width ea.mode))
  simp only [jumpTo, hs, Host.Outcome.next.injEq] at h
  exact ⟨answers, bus, _, base, .jump (by decide) _, h.symm⟩

/-- Taking an exception: the three pushes and the mark, then the vector's two reads. -/
theorem State.enter_eq (s : State) (e : Entry) (ret : Addr) : ∃ pc answers bus,
    s.enter e ret =
      { e.mark ((s.pushWord ret).push (e.image s.p)) with pc := pc, answers := answers, bus := bus } := by
  unfold State.enter
  generalize e.mark ((s.pushWord ret).push (e.image s.p)) = pushed
  exact ⟨_, _, _, rfl⟩

theorem execBrk_runs {s t : State} (h : execBrk s = .next t) : Runs .BRK .IMPLICIT s t := by
  obtain ⟨pc, answers, bus, he⟩ := s.enter_eq .brk (s.pc + 2)
  have hw := Work.trap (mode := .IMPLICIT) (u := { s.advance 1 with answers := s.answers, bus := s.bus }) s.pc pc
    (hi8 (s.pc + 2)) (lo8 (s.pc + 2)) s.p.imageSet answers bus
  refine ⟨s.answers, s.bus, _, Config.interruptCycles, hw, ?_⟩
  rw [← Host.Outcome.next.inj h, he]
  rfl

/-- What any instruction can do, by its operand class and the work of its mnemonic. -/
theorem exec_runs {i : Instr} {s t : State} (h : exec i s = .next t) : Runs i.mnemonic i.mode s t := by
  cases i with
  | ldaImm _ | ldaZp _ | ldaZpx _ | ldaAbs _ | ldaAbx _ | ldaAby _ | ldaIzx _ | ldaIzy _
  | andImm _ | andZp _ | andZpx _ | andAbs _ | andAbx _ | andAby _ | andIzx _ | andIzy _
  | oraImm _ | oraZp _ | oraZpx _ | oraAbs _ | oraAbx _ | oraAby _ | oraIzx _ | oraIzy _
  | eorImm _ | eorZp _ | eorZpx _ | eorAbs _ | eorAbx _ | eorAby _ | eorIzx _ | eorIzy _ =>
    exact readClass_runs (fun _ _ => .loadA (of_decide_eq_true rfl) _) h
  | ldxImm _ | ldxZp _ | ldxZpy _ | ldxAbs _ | ldxAby _ =>
    exact readClass_runs (fun _ _ => .loadX (of_decide_eq_true rfl) _) h
  | ldyImm _ | ldyZp _ | ldyZpx _ | ldyAbs _ | ldyAbx _ =>
    exact readClass_runs (fun _ _ => .loadY (of_decide_eq_true rfl) _) h
  | adcImm _ | adcZp _ | adcZpx _ | adcAbs _ | adcAbx _ | adcAby _ | adcIzx _ | adcIzy _
  | sbcImm _ | sbcZp _ | sbcZpx _ | sbcAbs _ | sbcAbx _ | sbcAby _ | sbcIzx _ | sbcIzy _ =>
    exact readClass_runs (fun _ _ => .add (of_decide_eq_true rfl) _) h
  | cmpImm _ | cmpZp _ | cmpZpx _ | cmpAbs _ | cmpAbx _ | cmpAby _ | cmpIzx _ | cmpIzy _
  | cpxImm _ | cpxZp _ | cpxAbs _ | cpyImm _ | cpyZp _ | cpyAbs _ =>
    exact readClass_runs (fun _ _ => .compare (of_decide_eq_true rfl) _ _) h
  | bitZp _ | bitAbs _ => exact readClass_runs (fun _ _ => .bitTest _) h
  | staZp _ | staZpx _ | staAbs _ | staAbx _ | staAby _ | staIzx _ | staIzy _ | stxZp _ | stxZpy _ | stxAbs _ | styZp _
  | styZpx _ | styAbs _ => exact writeClass_runs (of_decide_eq_true rfl) h
  | aslZp _ | aslZpx _ | aslAbs _ | aslAbx _ | lsrZp _ | lsrZpx _ | lsrAbs _ | lsrAbx _
  | rolZp _ | rolZpx _ | rolAbs _ | rolAbx _ | rorZp _ | rorZpx _ | rorAbs _ | rorAbx _ =>
    exact shift_runs (of_decide_eq_true rfl) (fun _ _ => ⟨_, rfl⟩) h
  | aslAcc | lsrAcc | rolAcc | rorAcc => exact accClass_runs (of_decide_eq_true rfl) (fun _ _ => ⟨_, rfl⟩) h
  | incZp _ | incZpx _ | incAbs _ | incAbx _ | decZp _ | decZpx _ | decAbs _ | decAbx _ =>
    exact count_runs (of_decide_eq_true rfl) (fun _ _ => rfl) h
  | bccRel _ | bcsRel _ | beqRel _ | bneRel _ | bmiRel _ | bplRel _ | bvcRel _ | bvsRel _ =>
    exact branchClass_runs (of_decide_eq_true rfl) h
  | jmpAbs _ | jmpInd _ => exact jumpTo_runs h
  | jsrAbs w => exact ⟨s.answers, s.bus, _, 6, .call s.pc w _ _, (Host.Outcome.next.inj h).symm⟩
  | rts => exact implicitClass_runs (fun _ => .returnSub _ _ _ _) h
  | rti => exact implicitClass_runs (fun _ => .returnInt _ _ _ _ _) h
  | pha | php => exact implicitClass_runs (fun _ => .push (of_decide_eq_true rfl) _) h
  | pla => exact implicitClass_runs (fun _ => .pullA) h
  | plp => exact implicitClass_runs (fun _ => .pullP) h
  | txa | tya => exact implicitClass_runs (fun _ => .loadA (of_decide_eq_true rfl) _) h
  | inx | dex | tax | tsx => exact implicitClass_runs (fun _ => .loadX (of_decide_eq_true rfl) _) h
  | iny | dey | tay => exact implicitClass_runs (fun _ => .loadY (of_decide_eq_true rfl) _) h
  | txs => exact implicitClass_runs (fun _ => .setSp _) h
  | clc | sec => exact implicitClass_runs (fun _ => .setC (of_decide_eq_true rfl) _) h
  | cld | sed => exact implicitClass_runs (fun _ => .setD (of_decide_eq_true rfl) _) h
  | cli | sei => exact implicitClass_runs (fun _ => .setI (of_decide_eq_true rfl) _) h
  | clv => exact implicitClass_runs (fun _ => .clearV) h
  | brk => exact execBrk_runs h
  | nop => exact implicitClass_runs (fun _ => .none) h

end Sys2Proof.Machine

/-! The frames of the instructions: registers (10_state R10 to R12), flags (R18), and latches, fault record, mapper and OAM
(R20, R21). -/

namespace Sys2Proof.Machine

open Sys2Proof.Forms (storeWriters)

namespace Work

variable {m : Mnemonic} {mode : Mode} {u w : State}

theorem a_eq (h : Work m mode u w) (hm : m ∉ [.LDA, .ADC, .SBC, .AND, .ORA, .EOR, .PLA, .TXA, .TYA])
    (hmode : mode ≠ .ACCUMULATOR) : w.a = u.a := by
  cases h with
  | loadA hw | add hw => exact (hm (List.subset_def.mp (by decide) hw)).elim
  | pullA => exact absurd (by decide) hm
  | shiftA => exact absurd rfl hmode
  | trap => simp [Entry.mark]
  | _ => rfl

theorem x_eq (h : Work m mode u w) (hm : m ∉ [.LDX, .TAX, .TSX, .INX, .DEX]) : w.x = u.x := by
  cases h with
  | loadX hw => exact absurd hw hm
  | trap => simp [Entry.mark]
  | _ => rfl

theorem y_eq (h : Work m mode u w) (hm : m ∉ [.LDY, .TAY, .INY, .DEY]) : w.y = u.y := by
  cases h with
  | loadY hw => exact absurd hw hm
  | trap => simp [Entry.mark]
  | _ => rfl

theorem sp_eq (h : Work m mode u w) (hm : m ∉ [.PHA, .PHP, .PLA, .PLP, .JSR, .RTS, .RTI, .BRK, .TXS]) : w.sp = u.sp := by
  cases h with
  | push hw => exact (hm (List.subset_def.mp (by decide) hw)).elim
  | pullA | pullP | call | returnSub | returnInt | trap | setSp => exact absurd (by decide) hm
  | _ => rfl

theorem pc_eq (h : Work m mode u w)
    (hm : m ∉ [.BCC, .BCS, .BEQ, .BNE, .BMI, .BPL, .BVC, .BVS, .JMP, .JSR, .RTS, .RTI, .BRK]) : w.pc = u.pc := by
  cases h with
  | jump hw => exact (hm (List.subset_def.mp (by decide) hw)).elim
  | call | returnSub | returnInt | trap => exact absurd (by decide) hm
  | _ => rfl

theorem c_eq (h : Work m mode u w)
    (hm : m ∉ [.ADC, .SBC, .CMP, .CPX, .CPY, .ASL, .LSR, .ROL, .ROR, .CLC, .SEC, .PLP, .RTI]) : w.p.c = u.p.c := by
  cases h with
  | add hw | compare hw | shift hw | shiftA hw | setC hw => exact (hm (List.subset_def.mp (by decide) hw)).elim
  | pullP | returnInt => exact absurd (by decide) hm
  | trap => simp [Entry.mark]
  | _ => rfl

theorem zn_eq (h : Work m mode u w)
    (hm : m ∉ [.LDA, .LDX, .LDY, .ADC, .SBC, .AND, .ORA, .EOR, .CMP, .CPX, .CPY, .BIT, .ASL, .LSR, .ROL, .ROR, .INC, .DEC,
      .INX, .INY, .DEX, .DEY, .PLA, .TAX, .TAY, .TXA, .TYA, .TSX, .PLP, .RTI]) : w.p.z = u.p.z ∧ w.p.n = u.p.n := by
  cases h with
  | loadA hw | loadX hw | loadY hw | add hw | compare hw | shift hw | shiftA hw | count hw =>
    exact (hm (List.subset_def.mp (by decide) hw)).elim
  | bitTest | pullA | pullP | returnInt => exact absurd (by decide) hm
  | trap => simp [Entry.mark]
  | _ => exact ⟨rfl, rfl⟩

theorem i_eq (h : Work m mode u w) (hm : m ∉ [.SEI, .CLI, .BRK, .PLP, .RTI]) : w.p.i = u.p.i := by
  cases h with
  | setI hw => exact (hm (List.subset_def.mp (by decide) hw)).elim
  | pullP | returnInt | trap => exact absurd (by decide) hm
  | _ => rfl

theorem d_eq (h : Work m mode u w) (hm : m ∉ [.SED, .CLD, .PLP, .RTI]) : w.p.d = u.p.d := by
  cases h with
  | setD hw => exact (hm (List.subset_def.mp (by decide) hw)).elim
  | pullP | returnInt => exact absurd (by decide) hm
  | trap => simp [Entry.mark]
  | _ => rfl

theorem b_eq (h : Work m mode u w) (hm : m ∉ [.PLP, .RTI]) : w.p.b = u.p.b := by
  cases h with
  | pullP | returnInt => exact absurd (by decide) hm
  | trap => simp [Entry.mark]
  | _ => rfl

theorem v_eq (h : Work m mode u w) (hm : m ∉ [.ADC, .SBC, .BIT, .CLV, .PLP, .RTI]) : w.p.v = u.p.v := by
  cases h with
  | add hw => exact (hm (List.subset_def.mp (by decide) hw)).elim
  | bitTest | clearV | pullP | returnInt => exact absurd (by decide) hm
  | trap => simp [Entry.mark]
  | _ => rfl

/-- No work writes the NMI latch, the cycle parity, the fault record, the mapper or the OAM. -/
theorem controller_eq (h : Work m mode u w) :
    w.nmiPending = u.nmiPending ∧ w.cycOdd = u.cycOdd ∧ w.fault = u.fault ∧ w.mapper = u.mapper ∧ w.oam = u.oam := by
  cases h with
  | trap => simp [Entry.mark]
  | _ => exact ⟨rfl, rfl, rfl, rfl, rfl⟩

theorem svcNmi_eq (h : Work m mode u w) (hm : m ≠ .RTI) : w.svcNmi = u.svcNmi := by
  cases h with
  | returnInt => exact absurd rfl hm
  | trap => simp [Entry.mark]
  | _ => rfl

/-- Only a store at an effective address can match a write snoop: the pushes stay in page 1. -/
theorem latches_eq (h : Work m mode u w) (hm : m ∉ storeWriters ∨ mode = .ACCUMULATOR) :
    w.nmiEn = u.nmiEn ∧ w.dmaPending = u.dmaPending ∧ w.dmaPage = u.dmaPage := by
  cases h with
  | store hw hmode | shift hw hmode | count hw hmode =>
    exact (hm.elim (· (List.subset_def.mp (by decide) hw)) hmode).elim
  | call | push | trap => simp [Entry.mark]
  | _ => exact ⟨rfl, rfl, rfl⟩

end Work

/-- An encoding has the length of its mode (30_encoding R57). -/
theorem encode_length (i : Instr) : (encode i).length = width i.mode := by
  cases i <;> rfl

/-- Settles O39: the frame of each register, by the work of the mnemonic; PC is at `npc` when the work begins. -/
theorem registersChangeOnlyByTheirWriters : Obligations.RegistersChangeOnlyByTheirWriters := by
  intro i s t h
  obtain ⟨answers, bus, w, n, hw, rfl⟩ := exec_runs h
  refine ⟨hw.a_eq, hw.x_eq, hw.y_eq, hw.sp_eq, fun hm => ?_⟩
  rw [State.charge_pc, hw.pc_eq hm, encode_length, State.advance_pc, BitVec.toNat_add, BitVec.toNat_ofNat, Nat.add_mod_mod]

/-- Settles O40: the frame of each flag, by the work of the mnemonic. -/
theorem flagsChangeOnlyByTheirWriters : Obligations.FlagsChangeOnlyByTheirWriters := by
  intro i s t h
  obtain ⟨answers, bus, w, n, hw, rfl⟩ := exec_runs h
  exact ⟨hw.c_eq, hw.zn_eq, hw.i_eq, hw.d_eq, hw.b_eq, hw.v_eq⟩

/-- Settles O41: the frames of latches, fault record, mapper and OAM, by the work of the mnemonic. -/
theorem instructionsLeaveTheController : Obligations.InstructionsLeaveTheController := by
  intro i s t h
  obtain ⟨answers, bus, w, n, hw, rfl⟩ := exec_runs h
  obtain ⟨hnmi, hodd, hfault, hmapper, hoam⟩ := hw.controller_eq
  exact ⟨hnmi, hodd, hfault, hmapper, hoam, hw.svcNmi_eq, hw.latches_eq⟩

end Sys2Proof.Machine

/-! The status byte (10_state R13 to R17). -/

namespace Sys2Proof.Machine

namespace Status

/-- The image `{N, V, 1, B, D, I, Z, C}` bit by bit, from bit 0 up (10_state R13). -/
theorem getLsbD_toByte (p : Status) (k : Nat) :
    p.toByte.getLsbD k = [p.c, p.z, p.i, p.d, p.b, true, p.v, p.n].getD k false := by
  match k with
  | 0 | 1 | 2 | 3 | 4 | 5 | 6 | 7 =>
    simp only [toByte, BitVec.getLsbD_append]
    simp
  | k + 8 => simp [BitVec.getLsbD_of_ge]

/-- A load of P's own image gives P back (10_state R16). -/
theorem ofByte_toByte (p : Status) : ofByte p.toByte = p := by
  simp only [ofByte, getLsbD_toByte]
  rfl

/-- A load drops bit 5, which every image shows as 1 (10_state R14). -/
theorem toByte_ofByte (v : Byte) : (ofByte v).toByte = v ||| 0x20 := by
  refine BitVec.eq_of_getLsbD_eq fun k hk => ?_
  rw [getLsbD_toByte]
  interval_cases k <;> simp [ofByte]

/-- A load reads every bit but bit 5. -/
theorem ofByte_congr {v v' : Byte} (h : ∀ k, k ≠ 5 → v.getLsbD k = v'.getLsbD k) : ofByte v = ofByte v' := by
  simp only [ofByte, h, ne_eq, Nat.reduceEqDiff, not_false_eq_true]

theorem setZN_z (p : Status) (v : Byte) : (p.setZN v).z = decide (v.toNat = 0) := by
  rw [Bool.eq_iff_iff]
  simp [setZN, BitVec.toNat_eq]

theorem setZN_n (p : Status) (v : Byte) : (p.setZN v).n = decide (128 ≤ v.toNat) :=
  (BitVec.msb_eq_getLsbD_last v).symm.trans (BitVec.msb_eq_decide v)

end Status

/-- Settles O5: the bits of the image, and the two round trips. -/
theorem statusBitFiveIsHardwired : Obligations.StatusBitFiveIsHardwired := by
  refine ⟨fun p => ?_, fun _ _ => Status.ofByte_congr, Status.toByte_ofByte, Status.ofByte_toByte⟩
  have h : p.toByte.getLsbD 5 = true := p.getLsbD_toByte 5
  simp [Status.imageSet, Status.imageAsIs, h]

/-- Settles O6: Z and N from the value; `SetZN` copies the other flags. -/
theorem setZNWritesZAndNOnly : Obligations.SetZNWritesZAndNOnly :=
  fun p v => ⟨p.setZN_z v, p.setZN_n v, rfl, rfl, rfl, rfl, rfl⟩

end Sys2Proof.Machine

/-! The invariant holds after every Reset of a sound image, and every event keeps it (10_state R24, R25). -/

namespace Sys2Proof.Machine

open Sys2Proof (MemorySound HaltSound CyclesSound Inv Reachable runEvents)

theorem haltSound_of_running {s : State} (h : s.fault = none) : HaltSound s := by
  intro f hf
  rw [h] at hf
  cases hf

@[simp] theorem State.gateNmi_fault (policy : NmiPolicy) (s : State) : (s.gateNmi policy).fault = s.fault := by
  rw [gateNmi_eq]

@[simp] theorem State.gateNmi_pc (policy : NmiPolicy) (s : State) : (s.gateNmi policy).pc = s.pc := by
  rw [gateNmi_eq]

@[simp] theorem State.gateNmi_cycles (policy : NmiPolicy) (s : State) : (s.gateNmi policy).cycles = s.cycles := by
  rw [gateNmi_eq]

@[simp] theorem State.serviceNmi_fault (s : State) : s.serviceNmi.fault = s.fault := by
  obtain ⟨-, -, -, -, -, -, -, -, hfault, -⟩ := s.enter_frame .nmi s.pc
  exact hfault

@[simp] theorem State.serviceDma_fault (s : State) : s.serviceDma.fault = s.fault := by
  obtain ⟨oam, answers, bus, h⟩ := s.serviceDma_frame
  rw [h]

theorem exec_fault {i : Instr} {s t : State} (h : exec i s = .next t) : t.fault = s.fault := by
  obtain ⟨-, -, hfault, -⟩ := instructionsLeaveTheController i s t h
  exact hfault

theorem memorySound_account {s : State} (h : MemorySound s) : MemorySound s.account :=
  memorySound_congr h rfl rfl

theorem memorySound_serviceNmi {s : State} (h : MemorySound s) : MemorySound s.serviceNmi :=
  memorySound_charge _ (State.memorySound_enter .nmi s.pc h)

theorem memorySound_begin {s : State} (h : MemorySound s) : MemorySound s.begin :=
  memorySound_congr h rfl rfl

theorem memorySound_gateNmi {s : State} (policy : NmiPolicy) (h : MemorySound s) :
    MemorySound (s.gateNmi policy) := by
  rw [State.gateNmi_eq]
  exact memorySound_congr h rfl rfl

theorem memorySound_doReset {s : State} (h : MemorySound s) : MemorySound s.doReset :=
  memorySound_congr h rfl rfl

/-- Reset gives the invariant to every sound image: it clears the fault record and the count (70_reset R240). -/
theorem inv_doReset {s : State} (h : MemorySound s) : Inv s.doReset :=
  ⟨memorySound_doReset h, haltSound_of_running rfl, .inl rfl⟩

/-- An instruction step keeps the fault record empty and the stored bytes sound. -/
theorem executeInstruction_next_sound {k : Params} {s t : State} (h : executeInstruction k s = .next t)
    (hs : MemorySound s) : MemorySound t ∧ t.fault = s.fault := by
  obtain ⟨i, u, v, hfetch, hexec, rfl⟩ := executeInstruction_next h
  obtain ⟨answers, bus, hu⟩ := fetchInstr_instr hfetch
  have hus : MemorySound u := memorySound_congr hs (by rw [hu]) (by rw [hu])
  exact ⟨memorySound_account (memorySound_exec hus hexec), by rw [State.account_fault, exec_fault hexec, hu]⟩

/-- A completed step starts from a machine that is not halted and leaves it so, with sound stored bytes. -/
theorem stepResult_next_sound {k : Params} {s t : State} (h : stepResult k s = .next t) (hs : MemorySound s) :
    MemorySound t ∧ t.fault = none := by
  obtain ⟨f, -, hr⟩ | ⟨hf, -, -, hr⟩ | ⟨hf, -, -, hr⟩ | ⟨hf, -, -, hr⟩ := stepResult_cases k s
  all_goals rw [hr] at h
  case inl => cases h
  case inr.inl =>
    rw [← StepResult.next.inj h]
    exact ⟨memorySound_account (memorySound_serviceNmi (memorySound_begin hs)), by simp [hf]⟩
  case inr.inr.inl =>
    rw [← StepResult.next.inj h]
    have hu := State.memorySound_serviceDma (memorySound_gateNmi k.nmiPolicy (memorySound_begin hs))
    exact ⟨memorySound_account hu, by simp [hf]⟩
  case inr.inr.inr =>
    obtain ⟨ht, hfault⟩ := executeInstruction_next_sound h (memorySound_gateNmi _ (memorySound_begin hs))
    exact ⟨ht, by simp [hfault, hf]⟩

/-- Where every byte is available, an instruction step faults only at an unassigned opcode byte, after the read of that
byte (60_exceptions R224, R225). -/
theorem executeInstruction_fault {k : Params} (hk : ∀ a, k.fetchAvailable a = true) {s t : State} {f : Fault}
    (h : executeInstruction k s = .fault f t) :
    ∃ op, dispatch op = none ∧ f = .illegalOpcode s.pc op ∧ t = (s.afterRead s.pc).halt f := by
  unfold executeInstruction at h
  cases hf : fetchInstr k s with
  | instr i u =>
    obtain ⟨v, hv⟩ := exec_answers_next i u
    simp [hf, hv] at h
  | stop g u =>
    obtain ⟨hd, rfl, rfl⟩ := fetchInstr_stop hk hf
    simp only [hf, StepResult.fault.injEq] at h
    obtain ⟨rfl, rfl⟩ := h
    exact ⟨_, hd, rfl, rfl⟩

/-- A step ends in a fault in a halted state, or, where every byte is available, at an unassigned opcode byte
(60_exceptions R200, R224). -/
theorem stepResult_fault {k : Params} (hk : ∀ a, k.fetchAvailable a = true) {s t : State} {f : Fault}
    (h : stepResult k s = .fault f t) :
    (s.fault = some f ∧ t = s) ∨
      (∃ op, dispatch op = none ∧ f = .illegalOpcode s.pc op ∧
        t = ((s.begin.gateNmi k.nmiPolicy).afterRead s.pc).halt f) := by
  obtain ⟨g, hg, hr⟩ | ⟨-, -, -, hr⟩ | ⟨-, -, -, hr⟩ | ⟨-, -, -, hr⟩ := stepResult_cases k s <;> rw [hr] at h
  case inl =>
    cases h
    exact .inl ⟨hg, rfl⟩
  case inr.inl => cases h
  case inr.inr.inl => cases h
  case inr.inr.inr =>
    have hfault := executeInstruction_fault hk h
    rw [State.gateNmi_pc, State.begin_pc] at hfault
    exact .inr hfault

/-- A call of `Step()` keeps the invariant, whatever it returns. -/
theorem inv_afterStep {k : Params} (hk : ∀ a, k.fetchAvailable a = true) {s : State} (h : Inv s) :
    Inv (s.afterStep k) := by
  unfold State.afterStep
  cases hr : stepResult k s with
  | next t =>
    obtain ⟨hmem, hrun⟩ := stepResult_next_sound hr h.memory
    obtain ⟨u, rfl, -, hlo, hhi⟩ := stepResult_next hr
    exact ⟨hmem, haltSound_of_running hrun, .inr ⟨hlo, hhi⟩⟩
  | fault f t =>
    obtain ⟨-, rfl⟩ | ⟨op, hd, rfl, rfl⟩ := stepResult_fault hk hr
    · exact h
    · refine ⟨memorySound_congr (memorySound_gateNmi k.nmiPolicy (memorySound_begin h.memory)) rfl rfl, ?_, ?_⟩
      · intro g hg
        exact ⟨op, by simpa using hg.symm, hd⟩
      · simpa [CyclesSound] using h.cycles
  | refused r => exact h

/-- Every event keeps the invariant, where every byte can be fetched (00_scope R5). -/
theorem inv_after {k : Params} (hk : ∀ a, k.fetchAvailable a = true) {s : State} (h : Inv s) (e : Event) :
    Inv (s.after k e) := by
  cases e with
  | step => exact inv_afterStep hk h
  | raiseNmi => exact ⟨memorySound_congr h.memory rfl rfl, h.halt, h.cycles⟩
  | reset => exact inv_doReset h.memory

/-- A run keeps the invariant. -/
theorem inv_runEvents {k : Params} (hk : ∀ a, k.fetchAvailable a = true) (es : List Event) {s : State} (h : Inv s) :
    Inv (runEvents k es s) := by
  induction es generalizing s with
  | nil => exact h
  | cons e es ih => exact ih (inv_after hk h e)

/-- Settles O57: the reset state lists no cell, is not halted and has no count yet. -/
theorem invariantAtReset : Obligations.InvariantAtReset :=
  ⟨⟨rfl, by decide, rfl, by decide⟩, haltSound_of_running rfl, .inl rfl⟩

/-- Settles O59: Reset establishes the invariant and every event of the run keeps it. -/
theorem reachableStatesHaveTheInvariant : Obligations.ReachableStatesHaveTheInvariant := by
  rintro s ⟨image, himage, es, rfl⟩
  exact inv_runEvents (fun _ => rfl) es (inv_doReset himage)

end Sys2Proof.Machine

/-! Every step and every event keep the invariant (10_state R25, 00_scope R5). -/

namespace Sys2Proof.Machine

theorem afterStep_of_next {k : Params} {s t : State} (h : stepResult k s = .next t) : s.afterStep k = t := by
  rw [State.afterStep, h]

/-- Settles O58: every event keeps the invariant, a completed step being the event that moves to its next state. -/
theorem everyStepKeepsTheInvariant : Obligations.EveryStepKeepsTheInvariant := by
  have hevent : ∀ (s : State) (e : Event), Inv s → Inv (s.after Params.hardware e) :=
    fun s e hs => inv_after (fun _ => rfl) hs e
  refine ⟨fun s t hs hstep => ?_, hevent, fun image himage => inv_doReset himage⟩
  have ht : s.after Params.hardware .step = t := afterStep_of_next (stepWith_next.mp hstep)
  exact ht ▸ hevent s .step hs

end Sys2Proof.Machine

/-! The address map and what a write does at each of its regions (20_memory R30, R31, R39 to R44). -/

namespace Sys2Proof.Machine

namespace Mapper

theorem backing_ram (m : Mapper) {addr : Addr} (h : addr.toNat < 0x2000) :
    m.backing addr = .ram (addr.toNat % 0x0800) := by
  simp only [backing, if_pos h]

theorem backing_prg (m : Mapper) {addr : Addr} (h : 0x8000 ≤ addr.toNat) : m.backing addr = m.prgBacking addr.toNat := by
  have h1 : ¬ addr.toNat < 0x2000 := by omega
  have h2 : ¬ addr.toNat < 0x4000 := by omega
  have h3 : ¬ addr.toNat < 0x4018 := by omega
  have h4 : ¬ addr.toNat < 0x8000 := by omega
  simp only [backing, if_neg h1, if_neg h2, if_neg h3, if_neg h4]

/-- Between RAM and cartridge space stand registers and unmapped addresses, none with a stored byte (20_memory R41, R42,
R44). -/
theorem cell_backing_device (m : Mapper) {addr : Addr} (hlo : 0x2000 ≤ addr.toNat) (hhi : addr.toNat < 0x8000) :
    (m.backing addr).cell = none := by
  simp only [backing, if_neg (not_lt.mpr hlo), if_pos hhi]
  split_ifs <;> rfl

/-- The cells of cartridge space are above every RAM cell (20_memory R43). -/
theorem le_of_cell_prgBacking {m : Mapper} {n c : Nat} (hn : 0x8000 ≤ n) (h : (m.prgBacking n).cell = some c) :
    0x8000 ≤ c := by
  cases m with
  | prg32 => exact Option.some.inj h ▸ hn
  | prg16 => exact Option.some.inj h ▸ Nat.le_add_right ..
  | unmapped => cases h

/-- Only RAM has RAM behind it. -/
theorem backing_ne_ram (m : Mapper) {addr : Addr} (h : 0x2000 ≤ addr.toNat) (c : Nat) : m.backing addr ≠ .ram c := by
  intro hb
  by_cases hhi : addr.toNat < 0x8000
  · have hcell := m.cell_backing_device h hhi
    rw [hb] at hcell
    cases hcell
  · rw [m.backing_prg (not_lt.mp hhi)] at hb
    cases m <;> cases hb

end Mapper

theorem isCtrlAddr_iff {addr : Addr} :
    isCtrlAddr addr = true ↔ 0x2000 ≤ addr.toNat ∧ addr.toNat < 0x4000 ∧ addr.toNat % 8 = 0 := by
  rw [isCtrlAddr, decide_eq_true_eq, Nat.lt_succ_iff]

theorem eq_dmaTriggerAddr_iff {addr : Addr} : addr = Config.dmaTriggerAddr ↔ addr.toNat = 0x4014 :=
  BitVec.toNat_eq

theorem getLsbD_seven (v : Byte) : v.getLsbD 7 = decide (128 ≤ v.toNat) :=
  (BitVec.msb_eq_getLsbD_last v).symm.trans (BitVec.msb_eq_decide v)

namespace State

/-- What stands behind an address depends on the mapper and the stored bytes alone. -/
theorem byteAt_congr {s t : State} (hmapper : t.mapper = s.mapper) (hmem : t.mem = s.mem) (a : Addr) :
    t.byteAt a = s.byteAt a := by
  simp only [byteAt, cell, hmapper, hmem]

theorem cell_ram (s : State) {a : Addr} (h : a.toNat < 0x2000) : s.cell a = some (a.toNat % 0x0800) := by
  rw [cell, s.mapper.backing_ram h]
  rfl

theorem cell_prg32 {s : State} (hm : s.mapper = .prg32) {a : Addr} (h : 0x8000 ≤ a.toNat) : s.cell a = some a.toNat := by
  rw [cell, s.mapper.backing_prg h, hm]
  rfl

theorem cell_prg16 {s : State} (hm : s.mapper = .prg16) {a : Addr} (h : 0x8000 ≤ a.toNat) :
    s.cell a = some (0x8000 + a.toNat % 0x4000) := by
  have hoff : (a.toNat - 0x8000) % 0x4000 = a.toNat % 0x4000 := by omega
  rw [cell, s.mapper.backing_prg h, hm, ← hoff]
  rfl

theorem cell_unmapped {s : State} (hm : s.mapper = .unmapped) {a : Addr} (h : 0x8000 ≤ a.toNat) : s.cell a = none := by
  rw [cell, s.mapper.backing_prg h, hm]
  rfl

theorem byteAt_of_cell {s : State} {a : Addr} {c : Nat} (h : s.cell a = some c) : s.byteAt a = some (s.mem.read c) := by
  rw [byteAt, h]
  rfl

theorem byteAt_of_no_cell {s : State} {a : Addr} (h : s.cell a = none) : s.byteAt a = none := by
  rw [byteAt, h]
  rfl

theorem isSome_cell (s : State) (a : Addr) : (s.cell a).isSome = (s.byteAt a).isSome := by
  rw [byteAt, Option.isSome_map]

/-- A write changes a stored byte only where RAM stands (20_memory R44). -/
theorem memWrite_mem_of_not_ram (s : State) {addr : Addr} (v : Byte) (h : ∀ c, s.mapper.backing addr ≠ .ram c) :
    (s.memWrite addr v).mem = s.mem := by
  rw [memWrite_mem]
  cases hb : s.mapper.backing addr with
  | ram c => exact absurd hb (h c)
  | _ => simp only [busWrite, hb]

theorem byteAt_memWrite_of_le (s : State) {addr : Addr} (v : Byte) (a : Addr) (h : 0x2000 ≤ addr.toNat) :
    (s.memWrite addr v).byteAt a = s.byteAt a :=
  byteAt_congr (s.memWrite_mapper addr v) (s.memWrite_mem_of_not_ram v (s.mapper.backing_ne_ram h)) a

theorem cell_ne_of_ram_of_prg (s : State) {addr a : Addr} (haddr : addr.toNat < 0x2000) (ha : 0x8000 ≤ a.toNat) :
    s.cell a ≠ s.cell addr := by
  intro h
  rw [s.cell_ram haddr, cell, s.mapper.backing_prg ha] at h
  have := Mapper.le_of_cell_prgBacking ha h
  omega

/-- No write reaches cartridge space: RAM lies below it and every other address drops the byte (20_memory R43, R44). -/
theorem byteAt_memWrite_prg (s : State) (addr : Addr) (v : Byte) {a : Addr} (ha : 0x8000 ≤ a.toNat) :
    (s.memWrite addr v).byteAt a = s.byteAt a := by
  by_cases h : addr.toNat < 0x2000
  · exact byteAt_memWrite_ne v (s.cell_ne_of_ram_of_prg h ha)
  · exact s.byteAt_memWrite_of_le v a (not_lt.mp h)

theorem answer_of_byteAt {s : State} {a : Addr} {v : Byte} (h : s.byteAt a = some v) : s.answer a = v := by
  rw [answer, h]
  rfl

theorem answer_of_no_byte {s : State} {a : Addr} (h : s.byteAt a = none) : s.answer a = Config.freeByte s.answers := by
  rw [answer, h]
  rfl

theorem answer_congr {s t : State} {a : Addr} (h : t.byteAt a = s.byteAt a) (hanswers : t.answers = s.answers) :
    t.answer a = s.answer a := by
  rw [answer, answer, h, hanswers]

end State

/-- Settles O9: two RAM addresses are aliases exactly when their low 11 bits agree. -/
theorem ramIsMirrored : Obligations.RamIsMirrored := by
  intro s v addr a haddr ha
  refine ⟨fun halias => ?_, fun hne => ?_⟩
  · have hcell : s.cell a = some (addr.toNat % 0x0800) := by rw [s.cell_ram ha, halias]
    exact State.answer_of_byteAt (State.byteAt_memWrite_alias v (s.mapper.backing_ram haddr) hcell)
  · refine State.answer_congr (State.byteAt_memWrite_ne v ?_) rfl
    rwa [s.cell_ram ha, s.cell_ram haddr, ne_eq, Option.some.injEq]

/-- Settles O10: outside RAM a write changes no stored byte. -/
theorem writesOutsideRamAreDropped : Obligations.WritesOutsideRamAreDropped :=
  fun s v _ a h => s.byteAt_memWrite_of_le v a h

/-- Settles O11: the cell of an address under each mapper variant, and no cell below cartridge space. -/
theorem mapperVariantsResolve : Obligations.MapperVariantsResolve := by
  refine ⟨fun s a a' ha ha' => ⟨fun hm => ?_, fun hm => ?_, fun hm => ?_, fun hm => ?_, fun hm => ?_⟩, fun s a hlo hhi => ?_⟩
  · rw [State.cell_prg16 hm ha, State.cell_prg16 hm ha', Option.some.injEq, Nat.add_left_cancel_iff]
  · rw [State.cell_prg32 hm ha, State.cell_prg32 hm ha', Option.some.injEq, BitVec.toNat_eq]
  · exact State.byteAt_of_cell (State.cell_prg16 hm ha)
  · exact State.byteAt_of_cell (State.cell_prg32 hm ha)
  · exact State.byteAt_of_no_cell (State.cell_unmapped hm ha)
  · exact State.byteAt_of_no_cell (s.mapper.cell_backing_device hlo hhi)

/-- Settles O12: the two snooped addresses exclude each other, and a write to any other address sets no latch. -/
theorem writeSnoops : Obligations.WriteSnoops := by
  intro s v addr
  simp only [State.memWrite_dmaPending, State.memWrite_dmaPage, State.memWrite_nmiEn, eq_dmaTriggerAddr_iff, isCtrlAddr_iff,
    getLsbD_seven]
  refine ⟨fun htrigger => ?_, fun hctrl => ?_, fun ⟨htrigger, hctrl⟩ => ?_⟩
  · have hctrl : ¬ (0x2000 ≤ addr.toNat ∧ addr.toNat < 0x4000 ∧ addr.toNat % 8 = 0) := by omega
    simp only [if_pos htrigger, if_neg hctrl, and_self]
  · have htrigger : addr.toNat ≠ 0x4014 := by omega
    simp only [if_pos hctrl, if_neg htrigger, and_self]
  · simp only [if_neg hctrl, if_neg htrigger, and_self]

/-- Settles O60: the answer and the count by whether a stored byte stands at the address. -/
theorem readsAnswerTheStoredByte : Obligations.ReadsAnswerTheStoredByte := by
  intro s a
  refine ⟨fun v h => ⟨State.answer_of_byteAt h, ?_⟩, fun h => ⟨State.answer_of_no_byte h, ?_⟩, rfl⟩
  all_goals
    show (s.afterRead a).answers = _
    rw [State.afterRead_answers, State.isSome_cell, h]
    rfl

end Sys2Proof.Machine

/-! The stack stays in page 1 and wraps modulo 256 (20_memory R35 to R37). -/

namespace Sys2Proof.Machine

theorem toNat_stackAddr (sp : Byte) : (stackAddr sp).toNat = 0x0100 + sp.toNat := by
  rw [stackAddr, toNat_word]
  rfl

namespace State

/-- A pushed byte reads back at the cell SP named (20_memory R35). -/
theorem byteAt_push_same (s : State) (v : Byte) : (s.push v).byteAt (stackAddr s.sp) = some v := by
  have hb := backing_stackAddr s.mapper s.sp
  exact byteAt_memWrite_alias v hb (congrArg Backing.cell hb)

theorem byteAt_push_ne {s : State} {a : Addr} (v : Byte) (h : s.cell a ≠ s.cell (stackAddr s.sp)) :
    (s.push v).byteAt a = s.byteAt a :=
  byteAt_memWrite_ne (s := s) v h

theorem pull_push_value (s : State) (v : Byte) : (s.push v).pull.1 = v := by
  rw [pull_value, push_sp, BitVec.sub_add_cancel]
  exact answer_of_byteAt (s.byteAt_push_same v)

/-- SP after a list of pushes (20_memory R37). -/
theorem foldl_push_sp (vs : List Byte) (s : State) : (vs.foldl State.push s).sp = s.sp - BitVec.ofNat 8 vs.length := by
  induction vs generalizing s with
  | nil => exact (BitVec.sub_zero s.sp).symm
  | cons v vs ih =>
    rw [List.foldl_cons, ih, push_sp, List.length_cons, Nat.add_comm, BitVec.ofNat_add]
    exact BitVec.sub_sub ..

end State

/-- Settles O7: the pull reads the cell of the push, and SP counts modulo 256. -/
theorem pushThenPullReturnsTheByte : Obligations.PushThenPullReturnsTheByte := by
  refine ⟨fun s v => ⟨s.pull_push_value v, ?_⟩, fun s hsp => ?_, fun s vs => State.foldl_push_sp vs s, fun s vs hlen => ?_⟩
  · rw [State.pull_sp, State.push_sp, BitVec.sub_add_cancel]
  · rw [State.pull_sp, State.pull_sp, State.pull_sp, hsp]
    rfl
  · rw [State.foldl_push_sp, hlen]
    constructor <;> intro hsp <;> rw [hsp] <;> rfl

/-- Settles O8: a push is one write in page 1, a pull one read. -/
theorem stackOperationsStayInPageOne : Obligations.StackOperationsStayInPageOne :=
  fun s v a => ⟨toNat_stackAddr s.sp, s.byteAt_push_same v, State.byteAt_push_ne v, State.byteAt_congr rfl rfl a⟩

end Sys2Proof.Machine

/-! No event reaches cartridge space or the mapper (20_memory R43, R44). -/

namespace Sys2Proof.Machine

/-- From `s` to `t` neither the mapper nor a byte of cartridge space changed. -/
structure KeepsRom (s t : State) : Prop where
  mapper : t.mapper = s.mapper
  bytes : ∀ a : Addr, 0x8000 ≤ a.toNat → t.byteAt a = s.byteAt a

namespace KeepsRom

variable {s t u : State}

theorem refl (s : State) : KeepsRom s s := ⟨rfl, fun _ _ => rfl⟩

/-- What writes neither the mapper nor a stored byte keeps ROM. -/
theorem then_eq (h : KeepsRom s t) (hmapper : u.mapper = t.mapper) (hmem : u.mem = t.mem) : KeepsRom s u :=
  ⟨hmapper.trans h.mapper, fun a ha => (State.byteAt_congr hmapper hmem a).trans (h.bytes a ha)⟩

theorem of_eq (hmapper : t.mapper = s.mapper) (hmem : t.mem = s.mem) : KeepsRom s t :=
  (refl s).then_eq hmapper hmem

theorem memWrite (h : KeepsRom s t) (addr : Addr) (v : Byte) : KeepsRom s (t.memWrite addr v) :=
  ⟨h.mapper, fun a ha => (t.byteAt_memWrite_prg addr v ha).trans (h.bytes a ha)⟩

theorem push (h : KeepsRom s t) (v : Byte) : KeepsRom s (t.push v) :=
  (h.memWrite (stackAddr t.sp) v).then_eq rfl rfl

theorem mark (h : KeepsRom s t) (e : Entry) : KeepsRom s (e.mark t) := by
  cases e <;> exact h.then_eq rfl rfl

theorem enter (h : KeepsRom s t) (e : Entry) (ret : Addr) : KeepsRom s (t.enter e ret) := by
  obtain ⟨pc, answers, bus, ht⟩ := t.enter_eq e ret
  rw [ht]
  exact ((((h.push (hi8 ret)).push (lo8 ret)).push (e.image t.p)).mark e).then_eq rfl rfl

/-- The work of a mnemonic writes a stored byte by a store or by pushes, or not at all. -/
theorem work {m : Mnemonic} {mode : Mode} (h : KeepsRom s t) (hw : Work m mode t u) : KeepsRom s u := by
  cases hw with
  | store _ _ addr v => exact h.memWrite addr v
  | shift _ _ addr v | count _ _ addr v => exact (h.memWrite addr v).then_eq rfl rfl
  | push _ v => exact h.push v
  | call pc _ hi lo =>
    have hpc : KeepsRom s { t with pc := pc } := h.then_eq rfl rfl
    exact ((hpc.push hi).push lo).then_eq rfl rfl
  | trap pc _ hi lo image =>
    have hpc : KeepsRom s { t with pc := pc } := h.then_eq rfl rfl
    exact ((((hpc.push hi).push lo).push image).mark .brk).then_eq rfl rfl
  | _ => exact h.then_eq rfl rfl

theorem exec {i : Instr} (h : KeepsRom s t) (hexec : exec i t = .next u) : KeepsRom s u := by
  obtain ⟨answers, bus, w, n, hw, rfl⟩ := exec_runs hexec
  have hread : KeepsRom s { t.advance (width i.mode) with answers := answers, bus := bus } := h.then_eq rfl rfl
  exact (hread.work hw).then_eq rfl rfl

theorem serviceDma (h : KeepsRom s t) : KeepsRom s t.serviceDma := by
  obtain ⟨oam, answers, bus, ht⟩ := t.serviceDma_frame
  rw [ht]
  exact h.then_eq rfl rfl

theorem gateNmi (h : KeepsRom s t) (policy : NmiPolicy) : KeepsRom s (t.gateNmi policy) := by
  rw [State.gateNmi_eq]
  exact h.then_eq rfl rfl

end KeepsRom

/-- A stopped fetch of operand bytes writes only the count of free answers and the transactions. -/
theorem fetchOperands_stop_reads {k : Params} {r : Row} {opcode : Byte} {s t : State} {f : Fault}
    (h : fetchOperands k r opcode s = .stop f t) : ∃ answers bus, t = { s with answers := answers, bus := bus } := by
  simp only [fetchOperands] at h
  split at h
  · cases h
  · split at h <;> cases h
    exact ⟨s.answers, s.bus, rfl⟩
  · split at h
    · split at h <;> cases h
      exact ⟨_, _, rfl⟩
    · cases h
      exact ⟨s.answers, s.bus, rfl⟩

/-- A stopped fetch writes only the count of free answers and the transactions. -/
theorem fetchInstr_stop_reads {k : Params} {s t : State} {f : Fault} (h : fetchInstr k s = .stop f t) :
    ∃ answers bus, t = { s with answers := answers, bus := bus } := by
  simp only [fetchInstr] at h
  split at h
  · split at h
    · cases h
      exact ⟨_, _, rfl⟩
    · split at h
      · obtain ⟨answers, bus, rfl⟩ := fetchOperands_stop_reads h
        exact ⟨answers, bus, rfl⟩
      · cases h
        exact ⟨_, _, rfl⟩
  · cases h
    exact ⟨s.answers, s.bus, rfl⟩

/-- A faulting instruction step is a stopped fetch, since every instruction completes (60_exceptions R201, R225). -/
theorem executeInstruction_fault_fetch {k : Params} {s t : State} {f : Fault} (h : executeInstruction k s = .fault f t) :
    ∃ u, fetchInstr k s = .stop f u ∧ t = u.halt f := by
  unfold executeInstruction at h
  cases hf : fetchInstr k s with
  | instr i u =>
    obtain ⟨v, hv⟩ := exec_answers_next i u
    simp [hf, hv] at h
  | stop g u =>
    simp only [hf, StepResult.fault.injEq] at h
    obtain ⟨rfl, rfl⟩ := h
    exact ⟨u, rfl, rfl⟩

namespace KeepsRom

variable {k : Params} {s t u : State}

theorem executeInstruction_next (h : KeepsRom s t) (hr : executeInstruction k t = .next u) : KeepsRom s u := by
  obtain ⟨i, v, w, hfetch, hexec, rfl⟩ := Machine.executeInstruction_next hr
  obtain ⟨answers, bus, rfl⟩ := fetchInstr_instr hfetch
  have hread : KeepsRom s { t with answers := answers, bus := bus } := h.then_eq rfl rfl
  exact (hread.exec hexec).then_eq rfl rfl

theorem executeInstruction_fault {f : Fault} (h : KeepsRom s t) (hr : executeInstruction k t = .fault f u) :
    KeepsRom s u := by
  obtain ⟨v, hfetch, rfl⟩ := executeInstruction_fault_fetch hr
  obtain ⟨answers, bus, rfl⟩ := fetchInstr_stop_reads hfetch
  exact h.then_eq rfl rfl

/-- Each stage of a step keeps ROM, whatever the call returns (60_exceptions R200). -/
theorem afterStep (k : Params) (s : State) : KeepsRom s (s.afterStep k) := by
  have hbegin : KeepsRom s s.begin := of_eq rfl rfl
  have hgate := hbegin.gateNmi k.nmiPolicy
  unfold State.afterStep
  obtain ⟨f, -, hr⟩ | ⟨-, -, -, hr⟩ | ⟨-, -, -, hr⟩ | ⟨-, -, -, hr⟩ := stepResult_cases k s <;> rw [hr]
  case inl => exact refl s
  case inr.inl => exact (hbegin.enter .nmi s.begin.pc).then_eq rfl rfl
  case inr.inr.inl => exact hgate.serviceDma.then_eq (State.account_mapper _) (State.account_mem _)
  case inr.inr.inr =>
    cases hx : executeInstruction k (s.begin.gateNmi k.nmiPolicy) with
    | next t => exact hgate.executeInstruction_next hx
    | fault f t => exact hgate.executeInstruction_fault hx
    | refused r => exact refl s

theorem after (k : Params) (s : State) (e : Event) : KeepsRom s (s.after k e) := by
  cases e with
  | step => exact afterStep k s
  | raiseNmi => exact of_eq rfl rfl
  | reset => exact of_eq rfl rfl

end KeepsRom

/-- Settles O56: every event keeps the mapper and the bytes of cartridge space. -/
theorem nothingChangesRom : Obligations.NothingChangesRom := by
  intro k e s a ha
  have h := KeepsRom.after k s e
  exact ⟨h.bytes a ha, h.mapper⟩

end Sys2Proof.Machine

/-! The encoding: decode and encode as inverses, and the dispatch table as the instruction set (30_encoding R53 to R62). -/

namespace Sys2Proof.Laws.RowOf

/-- The family `Statement`, for every instruction at once. -/
theorem statement_holds : ∀ i, Statement i :=
  Instr.rec
    ldaImm ldaZp ldaZpx ldaAbs ldaAbx ldaAby ldaIzx ldaIzy ldxImm ldxZp ldxZpy ldxAbs ldxAby ldyImm ldyZp ldyZpx ldyAbs
    ldyAbx adcImm adcZp adcZpx adcAbs adcAbx adcAby adcIzx adcIzy sbcImm sbcZp sbcZpx sbcAbs sbcAbx sbcAby sbcIzx
    sbcIzy andImm andZp andZpx andAbs andAbx andAby andIzx andIzy oraImm oraZp oraZpx oraAbs oraAbx oraAby oraIzx
    oraIzy eorImm eorZp eorZpx eorAbs eorAbx eorAby eorIzx eorIzy cmpImm cmpZp cmpZpx cmpAbs cmpAbx cmpAby cmpIzx
    cmpIzy cpxImm cpxZp cpxAbs cpyImm cpyZp cpyAbs bitZp bitAbs aslAcc aslZp aslZpx aslAbs aslAbx lsrAcc lsrZp lsrZpx
    lsrAbs lsrAbx rolAcc rolZp rolZpx rolAbs rolAbx rorAcc rorZp rorZpx rorAbs rorAbx incZp incZpx incAbs incAbx decZp
    decZpx decAbs decAbx inx iny dex dey staZp staZpx staAbs staAbx staAby staIzx staIzy stxZp stxZpy stxAbs styZp
    styZpx styAbs bccRel bcsRel beqRel bneRel bmiRel bplRel bvcRel bvsRel jmpAbs jmpInd jsrAbs rts rti pha php pla plp
    tax tay txa tya tsx txs clc cld cli clv sec sed sei brk nop

end Sys2Proof.Laws.RowOf

namespace Sys2Proof

open Machine Forms
open Laws.RowOf (operandBytes statement_holds)

/-- The operand bytes fill what the mode's width leaves after the opcode byte (30_encoding R53, R54). -/
theorem length_operand_bytes (i : Instr) : 1 + i.descriptor.operand.bytes.length = width i.mode := by
  rw [← encode_length i, encode, List.length_cons, Nat.add_comm]

/-- `Dispatch` maps an instruction's opcode byte to the row of its mnemonic and mode, which builds it from its operand
bytes (30_encoding R55, R58, R59). -/
theorem dispatch_opcode (i : Instr) :
    ∃ r, dispatch i.opcode = some r ∧ r.mnemonic = i.mnemonic ∧ r.mode = i.mode ∧
      r.make (operandBytes i.descriptor.operand).1 (operandBytes i.descriptor.operand).2 = i := by
  obtain ⟨-, hpair, -, hmake⟩ := statement_holds i
  obtain ⟨r, hr, hpair⟩ := Option.map_eq_some_iff.mp hpair
  obtain ⟨hmnemonic, hmode⟩ := Prod.mk.inj hpair
  rw [hr, Option.map_some, Option.some.injEq] at hmake
  exact ⟨r, hr, hmnemonic, hmode, hmake⟩

theorem decode_cons_of_dispatch {opcode : Byte} {r : Row} (h : dispatch opcode = some r) (rest : List Byte) :
    decode (opcode :: rest) = assemble r rest := by
  rw [decode, h]

/-- A row takes exactly the operand bytes its mode's width asks for and hands on the rest (30_encoding R57). -/
theorem assemble_operand_bytes {r : Row} {d : OperandField} (h : width r.mode = 1 + d.bytes.length) (rest : List Byte) :
    assemble r (d.bytes ++ rest) = .ok (r.make (operandBytes d).1 (operandBytes d).2) rest := by
  unfold assemble
  rw [h]
  cases d <;> rfl

theorem decode_encode (i : Instr) (rest : List Byte) : decode (encode i ++ rest) = .ok i rest := by
  obtain ⟨r, hr, -, hmode, hmake⟩ := dispatch_opcode i
  have hwidth : width r.mode = 1 + i.descriptor.operand.bytes.length := by rw [hmode, length_operand_bytes]
  rw [encode, List.cons_append, decode_cons_of_dispatch hr, assemble_operand_bytes hwidth, hmake]

/-- Settles O1: the opcode byte selects the instruction's row, which takes its operand bytes and gives it back. -/
theorem decodeOfEncodeIsTheInstruction : Obligations.DecodeOfEncodeIsTheInstruction := decode_encode

/-- What a row builds from `b1` and `b2` is encoded by the row's opcode byte and as many of them as its width takes. -/
def Row.Encodes (r : Row) : Prop :=
  ∀ b1 b2, encode (r.make b1 b2) = r.opcode :: [b1, b2].take (width r.mode - 1)

/-- Row by row of the opcode map, 30_encoding R58. -/
theorem dispatchRows_encodes : ∀ r ∈ dispatchRows, r.Encodes := by
  rw [← List.forall_iff_forall_mem]
  simp [dispatchRows, rows0x, rows1x, rows2x, rows3x, rows4x, rows5x, rows6x, rows7x, rows8x, rows9x, rowsAx, rowsBx, rowsCx,
    rowsDx, rowsEx, rowsFx, Row.Encodes, encode, Instr.opcode, Instr.descriptor, OperandField.bytes, width]

/-- What assembling answers: the row's instruction from the bytes its width takes, and the bytes after them. -/
theorem assemble_ok {r : Row} {tail rest : List Byte} {i : Instr} (h : assemble r tail = .ok i rest) :
    ∃ b1 b2, i = r.make b1 b2 ∧ tail = [b1, b2].take (width r.mode - 1) ++ rest := by
  unfold assemble at h
  split at h
  case h_1 hw =>
    cases h
    exact ⟨0, 0, rfl, by rw [hw]; rfl⟩
  case h_2 b1 _ hw =>
    cases h
    exact ⟨b1, 0, rfl, by rw [hw]; rfl⟩
  case h_3 b1 b2 _ hw =>
    cases h
    exact ⟨b1, b2, rfl, by rw [hw]; rfl⟩
  case h_4 => cases h

/-- Settles O2: the first byte selects a row, and every row encodes what it builds by its opcode byte and the bytes it
took. -/
theorem encodeOfDecodeIsTheBytes : Obligations.EncodeOfDecodeIsTheBytes := by
  intro bytes rest i h
  cases bytes with
  | nil => cases h
  | cons opcode tail =>
    cases hr : dispatch opcode with
    | none =>
      rw [decode, hr] at h
      cases h
    | some r =>
      rw [decode_cons_of_dispatch hr] at h
      obtain ⟨hmem, rfl⟩ := dispatch_some hr
      obtain ⟨b1, b2, rfl, rfl⟩ := assemble_ok h
      rw [dispatchRows_encodes r hmem b1 b2, List.cons_append]

/-- The bytes that are no row's opcode are the listed ones (30_encoding R60), compared as numbers. -/
theorem filter_range_unassigned :
    (List.range 256).filter (· ∉ dispatchRows.map fun r => r.opcode.toNat) = unassignedBytes.map BitVec.toNat := by
  decide

theorem dispatch_eq_none_iff {op : Byte} : dispatch op = none ↔ op ∈ unassignedBytes := by
  calc dispatch op = none
    _ ↔ op.toNat ∉ dispatchRows.map fun r => r.opcode.toNat := by simp [dispatch, BitVec.toNat_inj]
    _ ↔ op.toNat ∈ unassignedBytes.map BitVec.toNat := by
      rw [← filter_range_unassigned, List.mem_filter, List.mem_range, decide_eq_true_eq, and_iff_right op.isLt]
    _ ↔ op ∈ unassignedBytes := List.mem_map_of_injective fun _ _ => BitVec.eq_of_toNat_eq

/-- Settles O4: each constructor by its row, the unassigned bytes by the opcodes of the table. -/
theorem dispatchTableIsTheInstructionSet : Obligations.DispatchTableIsTheInstructionSet := by
  refine ⟨fun i => ?_, fun _ => dispatch_eq_none_iff, rfl⟩
  obtain ⟨hwf, -, hlength, -⟩ := statement_holds i
  obtain ⟨r, hr, hmnemonic, hmode, -⟩ := dispatch_opcode i
  exact ⟨hwf, hlength, r, hr, hmnemonic, hmode⟩

/-- Settles O3: the spec's words are encodings, which decode back; `02` has no row. -/
theorem specWordsDecode : Obligations.SpecWordsDecode :=
  ⟨decode_encode (.ldaImm 0x50) [0x50, 0x85], decode_encode (.bvcRel 0x85) [], decode_encode (.aslAbx 0x02F0) [],
    decode_encode (.staIzy 0x40) [], decode_encode (.jmpInd 0x02FF) [], decode_encode .pha [], decode_encode .txs [],
    decode_encode .sei [], decode_encode .brk [], rfl⟩

end Sys2Proof

/-! Instruction bytes that are not available (30_encoding R56, 60_exceptions R222, R225). -/

namespace Sys2Proof.Machine

open Sys2Proof.Forms (RunsInstruction)

variable {k : Params} {s t : State} {r : Row} {opcode : Byte} {f : Fault}

/-- With neither halt, NMI nor DMA a step is an instruction step, after the NMI policy (60_exceptions R200). -/
theorem stepResult_of_runsInstruction (h : RunsInstruction s) (k : Params) :
    ∃ nmiPending, stepResult k s = executeInstruction k { s with nmiPending := nmiPending, bus := [] } := by
  obtain ⟨hfault, hnmi, hdma⟩ := h
  obtain ⟨f, hf, -⟩ | ⟨-, hpending, hen, -⟩ | ⟨-, -, hd, -⟩ | ⟨-, -, -, hstep⟩ := stepResult_cases k s
  · simp [hfault] at hf
  · simp [hpending, hen] at hnmi
  · simp [hdma] at hd
  · exact ⟨_, by rw [hstep, State.gateNmi_eq]; rfl⟩

theorem executeInstruction_of_stop (h : fetchInstr k s = .stop f t) : executeInstruction k s = .fault f (t.halt f) := by
  rw [executeInstruction, h]

theorem width_le_three (m : Mode) : width m ≤ 3 := by
  cases m <;> decide

/-- One operand byte that a row's width asks for and that is not available stops the fetch (60_exceptions R222). -/
theorem fetchOperands_of_missing {j : Nat} (hj : 1 ≤ j) (hwidth : j < width r.mode)
    (h : k.fetchAvailable (s.pc + BitVec.ofNat 16 j) = false) :
    ∃ t, fetchOperands k r opcode s = .stop (.incompleteInstruction s.pc opcode) t := by
  have hle := width_le_three r.mode
  unfold fetchOperands
  split
  case h_1 hw => omega
  case h_2 hw =>
    obtain rfl : j = 1 := by omega
    exact ⟨s, by simp [h]⟩
  case h_3 =>
    obtain rfl | rfl : j = 1 ∨ j = 2 := by omega
    · exact ⟨s, by simp [h]⟩
    · cases h1 : k.fetchAvailable (s.pc + 1) with
      | false => exact ⟨s, by simp⟩
      | true => exact ⟨(s.memRead (s.pc + 1)).2, by simp [h]⟩

theorem fetchInstr_of_missing_opcode (h : k.fetchAvailable s.pc = false) :
    fetchInstr k s = .stop (.incompleteInstruction s.pc 0x00) s := by
  rw [fetchInstr, h]
  rfl

/-- An assigned opcode byte goes on to its operand bytes, since every row's pair is legal (60_exceptions R221); a missing
one stops it (R222). -/
theorem fetchInstr_of_missing_operand (hop : k.fetchAvailable s.pc = true) (hr : dispatch (s.answer s.pc) = some r) {j : Nat}
    (hj : 1 ≤ j) (hwidth : j < width r.mode) (h : k.fetchAvailable (s.pc + BitVec.ofNat 16 j) = false) :
    ∃ t, fetchInstr k s = .stop (.incompleteInstruction s.pc (s.answer s.pc)) t := by
  obtain ⟨t, ht⟩ := fetchOperands_of_missing (s := s.afterRead s.pc) (opcode := s.answer s.pc) hj hwidth h
  exact ⟨t, by simp [fetchInstr, hop, State.memRead, hr, legalPair_of_dispatch hr, ht]⟩

/-- A stopped fetch is the step's fault, and leaves every register, flag and stored byte and the parity (60_exceptions
R225). -/
theorem stepResult_of_stop {nmiPending : Bool} {bus : List BusEvent}
    (hstep : stepResult k s = executeInstruction k { s with nmiPending := nmiPending, bus := bus })
    (h : fetchInstr k { s with nmiPending := nmiPending, bus := bus } = .stop f t) :
    ∃ left, stepResult k s = .fault f left ∧
      (left.a, left.x, left.y, left.sp, left.pc, left.p, left.mem, left.cycOdd, left.fault) =
        (s.a, s.x, s.y, s.sp, s.pc, s.p, s.mem, s.cycOdd, some f) := by
  refine ⟨t.halt f, hstep.trans (executeInstruction_of_stop h), ?_⟩
  obtain ⟨answers, bus, rfl⟩ := fetchInstr_stop_reads h
  rfl

/-- Settles O51: the fetch stops at the missing byte, the opcode or an operand byte of its row. -/
theorem missingInstructionBytesFault : Obligations.MissingInstructionBytesFault := by
  intro k s hrun
  obtain ⟨nmiPending, hstep⟩ := stepResult_of_runsInstruction hrun k
  refine ⟨fun hop => stepResult_of_stop hstep (fetchInstr_of_missing_opcode hop), fun r hop hr ⟨j, hj, hwidth, h⟩ => ?_⟩
  obtain ⟨t, hstop⟩ := fetchInstr_of_missing_operand (s := { s with nmiPending := nmiPending, bus := [] }) hop hr hj hwidth h
  exact stepResult_of_stop hstep hstop

end Sys2Proof.Machine

/-! Which stored bytes an instruction can change that stores at no effective address: the stack cells it pushes to
(40_addressing_modes R85; 46_stack R160, R161; 45_jump_return R151; 49_brk_nop R190). -/

namespace Sys2Proof.Machine

open Sys2Proof.Forms (storeWriters stackWriters writesNoMemory)

/-- The values of SP that name the stack cells a mnemonic pushes to, in the order of its pushes, when it starts at `sp`. -/
def pushedOffsets : Mnemonic → Byte → List Byte
  | .PHA, sp | .PHP, sp => [sp]
  | .JSR, sp => [sp, sp - 1]
  | .BRK, sp => [sp, sp - 1, sp - 2]
  | _, _ => []

theorem pushedOffsets_of_not_stackWriter {m : Mnemonic} (hm : m ∉ stackWriters) (sp : Byte) : pushedOffsets m sp = [] := by
  unfold pushedOffsets
  split
  case h_5 => rfl
  all_goals exact absurd (by decide) hm

namespace State

variable {s : State} {a : Addr}

theorem byteAt_push_push_ne (v0 v1 : Byte) (h0 : s.cell a ≠ s.cell (stackAddr s.sp))
    (h1 : s.cell a ≠ s.cell (stackAddr (s.sp - 1))) : ((s.push v0).push v1).byteAt a = s.byteAt a :=
  (byteAt_push_ne (s := s.push v0) v1 h1).trans (byteAt_push_ne v0 h0)

theorem byteAt_push_push_push_ne (v0 v1 v2 : Byte) (h0 : s.cell a ≠ s.cell (stackAddr s.sp))
    (h1 : s.cell a ≠ s.cell (stackAddr (s.sp - 1))) (h2 : s.cell a ≠ s.cell (stackAddr (s.sp - 2))) :
    (((s.push v0).push v1).push v2).byteAt a = s.byteAt a := by
  have hsp : s.sp - 1 - 1 = s.sp - 2 := BitVec.sub_sub ..
  rw [← hsp] at h2
  exact (byteAt_push_ne (s := (s.push v0).push v1) v2 h2).trans (byteAt_push_push_ne v0 v1 h0 h1)

end State

/-- A work that stores at no effective address changes stored bytes at most in the cells it pushes to. -/
theorem Work.byteAt_eq {m : Mnemonic} {mode : Mode} {u w : State} {a : Addr} (h : Work m mode u w)
    (hstore : m ∉ storeWriters ∨ mode = .ACCUMULATOR)
    (hstack : ∀ k ∈ pushedOffsets m u.sp, u.cell a ≠ u.cell (stackAddr k)) : w.byteAt a = u.byteAt a := by
  cases h with
  | store hw hmode | shift hw hmode | count hw hmode =>
    exact (hstore.elim (· (List.subset_def.mp (by decide) hw)) hmode).elim
  | push hw v =>
    have hsp : u.sp ∈ pushedOffsets m u.sp := by
      obtain rfl | rfl : m = .PHA ∨ m = .PHP := by simpa using hw
      all_goals exact List.mem_singleton_self u.sp
    exact State.byteAt_push_ne v (hstack u.sp hsp)
  | call pc w hi lo =>
    simp only [pushedOffsets, List.forall_mem_cons] at hstack
    obtain ⟨h0, h1, -⟩ := hstack
    exact State.byteAt_push_push_ne (s := { u with pc := pc }) hi lo h0 h1
  | trap pc target hi lo image =>
    simp only [pushedOffsets, List.forall_mem_cons] at hstack
    obtain ⟨h0, h1, h2, -⟩ := hstack
    exact State.byteAt_push_push_push_ne (s := { u with pc := pc }) hi lo image h0 h1 h2
  | _ => rfl

theorem exec_byteAt_eq {i : Instr} {s t : State} {a : Addr} (h : exec i s = .next t)
    (hstore : i.mnemonic ∉ storeWriters ∨ i.mode = .ACCUMULATOR)
    (hstack : ∀ k ∈ pushedOffsets i.mnemonic s.sp, s.cell a ≠ s.cell (stackAddr k)) : t.byteAt a = s.byteAt a := by
  obtain ⟨answers, bus, w, n, hw, rfl⟩ := exec_runs h
  exact hw.byteAt_eq hstore hstack

theorem writesNoMemory_iff {i : Instr} :
    writesNoMemory i = true ↔ i.mnemonic ∉ stackWriters ∧ (i.mnemonic ∉ storeWriters ∨ i.mode = .ACCUMULATOR) := by
  simp [writesNoMemory]

/-- Settles O42: the work of the mnemonic changes at most the cells it pushes to, and each clause lists them. -/
theorem memoryChangesOnlyByStores : Obligations.MemoryChangesOnlyByStores := by
  intro i s t a h
  refine ⟨fun hno => ?_, ?_, ?_, ?_⟩
  · obtain ⟨hstack, hstore⟩ := writesNoMemory_iff.mp hno
    refine exec_byteAt_eq h hstore ?_
    rw [pushedOffsets_of_not_stackWriter hstack]
    exact List.forall_mem_nil _
  · rintro (rfl | rfl) ha <;> exact exec_byteAt_eq h (.inl (by decide)) (List.forall_mem_singleton.mpr ha)
  · rintro w rfl ha
    exact exec_byteAt_eq h (.inl (of_decide_eq_true rfl)) ha
  · rintro rfl ha
    exact exec_byteAt_eq h (.inl (by decide)) ha

end Sys2Proof.Machine

/-! Operand resolution as numbers: the effective address, the page crossing and the transactions of each mode
(40_addressing_modes R70 to R86). -/

namespace Sys2Proof.Machine

/-- Every instruction's mnemonic is in the list of its mode (30_encoding R62). -/
theorem mnemonic_mem_mnemonicsOf_mode (i : Instr) : i.mnemonic ∈ mnemonicsOf i.mode := by
  obtain ⟨hwf, -⟩ := Laws.RowOf.statement_holds i
  obtain ⟨hlegal, -⟩ := Bool.and_eq_true_iff.mp hwf
  exact List.contains_iff_mem.mp hlegal

theorem toNat_zext16_add (b index : Byte) : (zext16 (b + index)).toNat = (b.toNat + index.toNat) % 256 := by
  rw [toNat_zext16, BitVec.toNat_add]

theorem toNat_add_zext16 (base : Addr) (index : Byte) : (base + zext16 index).toNat = (base.toNat + index.toNat) % 65536 := by
  rw [BitVec.toNat_add, toNat_zext16]

/-- "Page crossed" says that the high bytes differ (R84). -/
theorem pageCrossed_iff {base ea : Addr} : pageCrossed base ea = true ↔ ea.toNat / 256 ≠ base.toNat / 256 := by
  rw [pageCrossed, bne_iff_ne, ne_eq, BitVec.toNat_eq, toNat_hi8, toNat_hi8]

theorem indexed_ea (base : Addr) (index : Byte) (s : State) :
    (indexed base index s).ea.toNat = (base.toNat + index.toNat) % 65536 :=
  toNat_add_zext16 base index

theorem indexed_crossed_iff {base : Addr} {index : Byte} {s : State} :
    (indexed base index s).crossed = true ↔ (base.toNat + index.toNat) % 65536 / 256 ≠ base.toNat / 256 := by
  rw [← toNat_add_zext16]
  exact pageCrossed_iff

/-- The address of a pointer's high byte: the page of the low byte, the offset one more modulo 256 (R80). -/
theorem toNat_pointer_high (ptr : Addr) :
    (word (lo8 ptr + 1) (hi8 ptr)).toNat = ptr.toNat / 256 * 256 + (ptr.toNat % 256 + 1) % 256 := by
  rw [toNat_word, toNat_hi8, BitVec.toNat_add, toNat_lo8]
  rfl

/-- A pointer is its low byte, then its high byte from the same page (R80 to R82). -/
theorem State.readPointer_eq (s : State) {ptr hiAddr : Addr}
    (h : hiAddr.toNat = ptr.toNat / 256 * 256 + (ptr.toNat % 256 + 1) % 256) :
    s.readPointer ptr =
      (word (s.answer ptr) ((s.afterRead ptr).answer hiAddr), (s.afterRead ptr).afterRead hiAddr) := by
  obtain rfl : hiAddr = word (lo8 ptr + 1) (hi8 ptr) := BitVec.eq_of_toNat_eq (h.trans (toNat_pointer_high ptr).symm)
  rfl

/-- A pointer in page 0 has its high byte in page 0 (R81, R82). -/
theorem State.readPointer_zeroPage (s : State) {b : Byte} {lo hi : Addr} (hlo : lo.toNat = b.toNat)
    (hhi : hi.toNat = (b.toNat + 1) % 256) :
    s.readPointer (zext16 b) = (word (s.answer lo) ((s.afterRead lo).answer hi), (s.afterRead lo).afterRead hi) := by
  obtain rfl : lo = zext16 b := BitVec.eq_of_toNat_eq (hlo.trans (toNat_zext16 b).symm)
  have hb := b.isLt
  refine s.readPointer_eq ?_
  omega

/-- Settles O13: the modes add in a byte and extend it; ZEROPAGE_Y lists two mnemonics. -/
theorem zeroPageModesWrapInPageZero : Obligations.ZeroPageModesWrapInPageZero := by
  refine ⟨fun b s => ⟨toNat_zext16 b, toNat_zext16_add b s.x, toNat_zext16_add b s.y, fun m hm => ?_⟩, fun i hmode => ?_⟩
  · simp only [List.mem_cons, List.not_mem_nil, or_false] at hm
    obtain rfl | rfl | rfl := hm <;> exact ⟨rfl, rfl, rfl⟩
  · have h := mnemonic_mem_mnemonicsOf_mode i
    rw [hmode] at h
    simpa [mnemonicsOf] using h

/-- Settles O14: both modes are the index added to the operand. -/
theorem absoluteIndexedModes : Obligations.AbsoluteIndexedModes := by
  intro w s m x hm
  simp only [List.mem_cons, List.not_mem_nil, or_false, Prod.mk.injEq] at hm
  obtain ⟨rfl, rfl⟩ | ⟨rfl, rfl⟩ := hm
  · exact ⟨indexed_ea w s.x s, indexed_crossed_iff, rfl, rfl⟩
  · exact ⟨indexed_ea w s.y s, indexed_crossed_iff, rfl, rfl⟩

/-- Settles O15: the mode is a pointer read; INDIRECT lists one mnemonic. -/
theorem indirectReadsWithinThePage : Obligations.IndirectReadsWithinThePage := by
  refine ⟨fun ptr hiAddr s h => ?_, rfl, fun i hmode => ?_⟩
  · rw [resolve, s.readPointer_eq h]
    exact ⟨toNat_word .., rfl, rfl⟩
  · have h := mnemonic_mem_mnemonicsOf_mode i
    rw [hmode] at h
    exact List.mem_singleton.mp h

/-- Settles O16: both modes read a pointer in page 0, the one at the indexed operand, the other to be indexed. -/
theorem zeroPagePointerModes : Obligations.ZeroPagePointerModes := by
  intro b s p0 p1 q0 q1 hp0 hp1 hq0 hq1
  have hx := BitVec.toNat_add b s.x
  have hptr := s.readPointer_zeroPage (b := b + s.x) (lo := p0) (hi := p1) (hp0.trans hx.symm) (by omega)
  have hbase := s.readPointer_zeroPage hq0 hq1
  rw [resolve, resolve, hptr, hbase, indexed_ea, indexed_crossed_iff, toNat_word, toNat_word]
  exact ⟨rfl, rfl, rfl, rfl, Iff.rfl, rfl⟩

/-- The transactions of a mode are reads, none or the two of a pointer (R70, R85). -/
theorem resolve_adds_reads (m : EaMode) (s : State) :
    ∃ n added, (resolve m s).state = { s with answers := n, bus := added ++ s.bus } ∧
      added.length ≤ 2 ∧ ∀ e ∈ added, ∃ a v, e = .read a v := by
  obtain h | ⟨ptr, h⟩ := resolve_state m s <;> rw [h]
  · exact ⟨s.answers, [], rfl, Nat.zero_le 2, List.forall_mem_nil _⟩
  · rw [readPointer_state]
    refine ⟨_, [.read _ _, .read _ _], rfl, le_rfl, ?_⟩
    simp only [List.forall_mem_cons]
    exact ⟨⟨_, _, rfl⟩, ⟨_, _, rfl⟩, List.forall_mem_nil _⟩

/-- Settles O17: a mode adds its reads, the operand one more, and IMMEDIATE reads nothing. -/
theorem resolutionWritesNothing : Obligations.ResolutionWritesNothing :=
  ⟨resolve_adds_reads, fun _ _ => ⟨rfl, rfl, _, rfl⟩, fun _ _ => rfl⟩

end Sys2Proof.Machine

/-! The load, arithmetic, logic, compare and bit-test instructions (41_load_alu R90 to R102): every form as its mnemonic's
effect on the operand it reads. -/

namespace Sys2Proof.Forms

open Sys2Proof.Machine

namespace ReadForm

/-- The form is an instruction of the read class with this effect. -/
def HasEffect (effect : Byte → State → State) (f : ReadForm) : Prop :=
  exec f.instr = readClass effect f.src f.base f.pen

variable {f : ReadForm} {effect : Byte → State → State}

/-- After its reads a form's state is the first one with PC at `npc`, but for the answers and the transactions. -/
theorem fetched_state (f : ReadForm) (s : State) :
    ∃ answers bus, (f.fetched s).state = { s with pc := f.npc s, answers := answers, bus := bus } :=
  readSource_reads f.src (s.advance (width f.src.mode))

theorem done_eq_charge (f : ReadForm) (s : State) : f.done s = (f.fetched s).state.charge (f.cost s) := by
  obtain ⟨answers, bus, h⟩ := f.fetched_state s
  rw [done, h]
  rfl

@[simp] theorem done_a (f : ReadForm) (s : State) : (f.done s).a = s.a := by
  obtain ⟨answers, bus, h⟩ := f.fetched_state s
  rw [done, h]

@[simp] theorem done_x (f : ReadForm) (s : State) : (f.done s).x = s.x := by
  obtain ⟨answers, bus, h⟩ := f.fetched_state s
  rw [done, h]

@[simp] theorem done_y (f : ReadForm) (s : State) : (f.done s).y = s.y := by
  obtain ⟨answers, bus, h⟩ := f.fetched_state s
  rw [done, h]

@[simp] theorem done_p (f : ReadForm) (s : State) : (f.done s).p = s.p := by
  obtain ⟨answers, bus, h⟩ := f.fetched_state s
  rw [done, h]

/-- A read-class form completes with its effect, which does not look at the count of cycles (41_load_alu R90). -/
theorem exec_of_mem {forms : List ReadForm} (hforms : forms.Forall (HasEffect effect)) (hf : f ∈ forms) (s : State)
    (hcharge : ∀ v u n, effect v (State.charge u n) = (effect v u).charge n := by exact fun _ _ _ => rfl) :
    exec f.instr s = .next (effect (f.fetched s).value (f.done s)) := by
  have h : f.HasEffect effect := List.forall_iff_forall_mem.mp hforms f hf
  rw [h, done_eq_charge, hcharge]
  rfl

end ReadForm

open ReadForm (HasEffect)

variable (b : Byte) (w : Addr)

theorem ldaForms_effect : (ldaForms b w).Forall (HasEffect ldaEffect) := ⟨rfl, rfl, rfl, rfl, rfl, rfl, rfl, rfl⟩
theorem ldxForms_effect : (ldxForms b w).Forall (HasEffect ldxEffect) := ⟨rfl, rfl, rfl, rfl, rfl⟩
theorem ldyForms_effect : (ldyForms b w).Forall (HasEffect ldyEffect) := ⟨rfl, rfl, rfl, rfl, rfl⟩
theorem adcForms_effect : (adcForms b w).Forall (HasEffect adcEffect) := ⟨rfl, rfl, rfl, rfl, rfl, rfl, rfl, rfl⟩
theorem sbcForms_effect : (sbcForms b w).Forall (HasEffect sbcEffect) := ⟨rfl, rfl, rfl, rfl, rfl, rfl, rfl, rfl⟩
theorem andForms_effect : (andForms b w).Forall (HasEffect andEffect) := ⟨rfl, rfl, rfl, rfl, rfl, rfl, rfl, rfl⟩
theorem oraForms_effect : (oraForms b w).Forall (HasEffect oraEffect) := ⟨rfl, rfl, rfl, rfl, rfl, rfl, rfl, rfl⟩
theorem eorForms_effect : (eorForms b w).Forall (HasEffect eorEffect) := ⟨rfl, rfl, rfl, rfl, rfl, rfl, rfl, rfl⟩
theorem cmpForms_effect : (cmpForms b w).Forall (HasEffect cmpEffect) := ⟨rfl, rfl, rfl, rfl, rfl, rfl, rfl, rfl⟩
theorem cpxForms_effect : (cpxForms b w).Forall (HasEffect cpxEffect) := ⟨rfl, rfl, rfl⟩
theorem cpyForms_effect : (cpyForms b w).Forall (HasEffect cpyEffect) := ⟨rfl, rfl, rfl⟩
theorem bitForms_effect : (bitForms b w).Forall (HasEffect bitEffect) := ⟨rfl, rfl⟩

end Sys2Proof.Forms

/-! The flag computations of R94 to R102 as numbers. -/

namespace Sys2Proof.Machine

open Sys2Proof.Forms (withZN)

theorem getLsbD_six (v : Byte) : v.getLsbD 6 = decide (64 ≤ v.toNat % 128) := by
  rw [BitVec.getLsbD, Nat.testBit_eq_decide_div_mod_eq, decide_eq_decide]
  omega

theorem beq_eq_decide_toNat (r v : Byte) : (r == v) = decide (v.toNat = r.toNat) := by
  rw [beq_eq_decide, decide_eq_decide, BitVec.toNat_eq, eq_comm]

theorem and_0x80_bne_zero (x : Byte) : (x &&& 0x80 != 0) = x.msb := by
  have h : x &&& 0x80 = if x.getLsbD 7 then 0x80 else 0 := BitVec.and_twoPow x 7
  rw [h, BitVec.msb_eq_getLsbD_last]
  cases x.getLsbD 7 <;> rfl

theorem toNat_adcResult (a v : Byte) (c : Bool) : (adcResult a v c).toNat = (a.toNat + v.toNat + c.toNat) % 256 :=
  BitVec.toNat_ofNat ..

/-- V of ADC: the operands have one sign and the result the other exactly when the signed sum leaves a byte (R94). -/
theorem adcOverflow_eq (a v : Byte) (c : Bool) :
    adcOverflow a v c = decide (a.toInt + v.toInt + c.toNat < -128 ∨ 127 < a.toInt + v.toInt + c.toNat) := by
  have ha := a.isLt
  have hv := v.isLt
  have hc := c.toNat_le
  have hr := toNat_adcResult a v c
  rw [adcOverflow, and_0x80_bne_zero, BitVec.msb_and, BitVec.msb_xor, BitVec.msb_xor, Bool.eq_iff_iff]
  simp only [BitVec.toInt_eq_msb_cond, BitVec.msb_eq_decide, Bool.and_eq_true, bne_iff_ne, ne_eq,
    decide_eq_decide, decide_eq_true_eq, hr]
  omega

/-- The operand SBC adds is the one's complement of its own (R95). -/
theorem toNat_complement (v : Byte) : (v ^^^ 0xFF).toNat = 255 - v.toNat := by
  have h : v ^^^ 0xFF = ~~~v := BitVec.xor_allOnes
  rw [h, BitVec.toNat_not]

theorem toInt_complement (v : Byte) : (v ^^^ 0xFF).toInt = -1 - v.toInt := by
  have hv := v.isLt
  simp only [BitVec.toInt_eq_msb_cond, BitVec.msb_eq_decide, toNat_complement, decide_eq_true_eq]
  omega

/-- The untruncated sum of SBC is the difference and 256 (R95). -/
theorem adcSum_complement (a v : Byte) (c : Bool) :
    (adcSum a (v ^^^ 0xFF) c : Int) = a.toNat - v.toNat - (1 - c.toNat) + 256 := by
  have hv := v.isLt
  rw [adcSum, toNat_complement]
  omega

theorem adcResult_complement (a v : Byte) (c : Bool) :
    adcResult a (v ^^^ 0xFF) c = BitVec.ofInt 8 (a.toNat - v.toNat - (1 - c.toNat)) := by
  rw [adcResult, ← BitVec.ofInt_natCast, adcSum_complement, BitVec.ofInt_add]
  exact BitVec.add_zero _

theorem adcCarry_complement (a v : Byte) (c : Bool) :
    adcCarry a (v ^^^ 0xFF) c = decide ((0 : Int) ≤ a.toNat - v.toNat - (1 - c.toNat)) := by
  have h := adcSum_complement a v c
  rw [adcCarry, decide_eq_decide]
  omega

theorem adcOverflow_complement (a v : Byte) (c : Bool) :
    adcOverflow a (v ^^^ 0xFF) c =
      decide (a.toInt - v.toInt - (1 - c.toNat) < -128 ∨ 127 < a.toInt - v.toInt - (1 - c.toNat)) := by
  have h : a.toInt + (v ^^^ 0xFF).toInt + c.toNat = a.toInt - v.toInt - (1 - c.toNat) := by
    rw [toInt_complement]
    omega
  rw [adcOverflow_eq, h]

namespace Status

theorem setZN_eq_withZN (p : Status) (v : Byte) : p.setZN v = withZN p v := by
  rw [withZN, ← p.setZN_z, ← p.setZN_n]
  rfl

theorem afterAdc_eq (p : Status) (a v : Byte) :
    p.afterAdc a v = { withZN p (adcResult a v p.c) with c := adcCarry a v p.c, v := adcOverflow a v p.c } := by
  rw [afterAdc, setZN_eq_withZN]
  rfl

theorem afterCompare_eq (p : Status) (r v : Byte) :
    p.afterCompare r v =
      { p with
        c := decide (v.toNat ≤ r.toNat), z := decide (v.toNat = r.toNat)
        n := decide (128 ≤ (r.toNat + 256 - v.toNat) % 256) } := by
  have hv := v.isLt
  have hsub : (r - v).toNat = (r.toNat + 256 - v.toNat) % 256 := by
    rw [BitVec.toNat_sub]
    omega
  rw [afterCompare, beq_eq_decide_toNat, getLsbD_seven, hsub]

theorem afterBit_eq (p : Status) (a v : Byte) :
    p.afterBit a v =
      { p with
        z := decide ((a &&& v).toNat = 0), n := decide (128 ≤ v.toNat), v := decide (64 ≤ v.toNat % 128) } := by
  have hz : (a &&& v == 0) = decide ((a &&& v).toNat = 0) := p.setZN_z (a &&& v)
  rw [afterBit, getLsbD_seven, getLsbD_six, hz]

end Status

end Sys2Proof.Machine

/-! Each instruction's result is its effect on the state its reads leave, said with numbers. -/

namespace Sys2Proof

open Machine Forms

/-- Settles O19: the forms of ADC, with V by the signs of the operands and the result. -/
theorem adcResult : Obligations.AdcResult := by
  intro b w s f hf
  rw [ReadForm.exec_of_mem (adcForms_effect b w) hf, adcEffect, f.done_a, f.done_p, Status.afterAdc_eq,
    adcOverflow_eq]
  rfl

/-- Settles O20: SBC is ADC of the one's complement. -/
theorem sbcResult : Obligations.SbcResult := by
  intro b w s f hf
  rw [ReadForm.exec_of_mem (sbcForms_effect b w) hf, sbcEffect, adcEffect, f.done_a, f.done_p,
    Status.afterAdc_eq, adcResult_complement, adcCarry_complement, adcOverflow_complement]

/-- Settles O18: the effect of each load. -/
theorem loadResult : Obligations.LoadResult := by
  intro b w s
  refine ⟨fun f hf => ?_, fun f hf => ?_, fun f hf => ?_⟩
  · rw [ReadForm.exec_of_mem (ldaForms_effect b w) hf, ldaEffect, f.done_p, Status.setZN_eq_withZN]
  · rw [ReadForm.exec_of_mem (ldxForms_effect b w) hf, ldxEffect, f.done_p, Status.setZN_eq_withZN]
  · rw [ReadForm.exec_of_mem (ldyForms_effect b w) hf, ldyEffect, f.done_p, Status.setZN_eq_withZN]

/-- Settles O21: the effect of each logic instruction. -/
theorem logicResult : Obligations.LogicResult := by
  intro b w s
  refine ⟨fun f hf => ?_, fun f hf => ?_, fun f hf => ?_⟩
  · rw [ReadForm.exec_of_mem (andForms_effect b w) hf, andEffect, f.done_a, f.done_p, Status.setZN_eq_withZN]
  · rw [ReadForm.exec_of_mem (oraForms_effect b w) hf, oraEffect, f.done_a, f.done_p, Status.setZN_eq_withZN]
  · rw [ReadForm.exec_of_mem (eorForms_effect b w) hf, eorEffect, f.done_a, f.done_p, Status.setZN_eq_withZN]

/-- Settles O22: one comparison, of A, X or Y. -/
theorem compareResult : Obligations.CompareResult := by
  intro b w s f r h v
  rw [← Status.afterCompare_eq]
  obtain ⟨hf, rfl⟩ | ⟨hf, rfl⟩ | ⟨hf, rfl⟩ := h
  · rw [ReadForm.exec_of_mem (cmpForms_effect b w) hf, ← f.done_a s, ← f.done_p s]
    rfl
  · rw [ReadForm.exec_of_mem (cpxForms_effect b w) hf, ← f.done_x s, ← f.done_p s]
    rfl
  · rw [ReadForm.exec_of_mem (cpyForms_effect b w) hf, ← f.done_y s, ← f.done_p s]
    rfl

/-- Settles O23: the flags of BIT from the operand's top bits and the masked A. -/
theorem bitTestResult : Obligations.BitTestResult := by
  intro b w s f hf
  rw [ReadForm.exec_of_mem (bitForms_effect b w) hf, ← f.done_a s, ← f.done_p s, bitEffect, Status.afterBit_eq]

end Sys2Proof

/-! The read-modify-write instructions (42_shift_incdec R110 to R120): every form as its mnemonic's operation on the byte
it reads. -/

namespace Sys2Proof.Forms

open Sys2Proof.Machine

namespace EaForm

/-- The form is a read-modify-write instruction with this operation. -/
def HasOp (op : Byte → Status → Byte × Status) (f : EaForm) : Prop :=
  exec f.instr = rmwClass op f.mode f.base

/-- Resolving the operand leaves PC at `npc` (R70). -/
theorem resolved_pc (f : EaForm) (s : State) : (f.resolved s).state.pc = f.npc s := by
  obtain ⟨answers, bus, h⟩ := resolve_reads f.mode (s.advance (width f.mode.mode))
  rw [resolved, h]
  rfl

/-- A memory form completes: it reads the effective address, then writes the operation's byte there and takes its flags
(R110). -/
theorem exec_of_mem {op : Byte → Status → Byte × Status} {forms : List EaForm} (hforms : forms.Forall (HasOp op))
    {f : EaForm} (hf : f ∈ forms) (s : State) :
    exec f.instr s = .next (f.modified s (op (f.operand s) s.p).1 (op (f.operand s) s.p).2) := by
  have h : f.HasOp op := List.forall_iff_forall_mem.mp hforms f hf
  rw [h, modified, ← f.resolved_pc]
  rfl

end EaForm

open EaForm (HasOp)

variable (b : Byte) (w : Addr)

theorem aslForms_op : (aslForms b w).Forall (HasOp aslOp) := ⟨rfl, rfl, rfl, rfl⟩
theorem lsrForms_op : (lsrForms b w).Forall (HasOp lsrOp) := ⟨rfl, rfl, rfl, rfl⟩
theorem rolForms_op : (rolForms b w).Forall (HasOp rolOp) := ⟨rfl, rfl, rfl, rfl⟩
theorem rorForms_op : (rorForms b w).Forall (HasOp rorOp) := ⟨rfl, rfl, rfl, rfl⟩
theorem incForms_op : (incForms b w).Forall (HasOp incOp) := ⟨rfl, rfl, rfl, rfl⟩
theorem decForms_op : (decForms b w).Forall (HasOp decOp) := ⟨rfl, rfl, rfl, rfl⟩

end Sys2Proof.Forms

/-! The operations of R111 to R120 as numbers. -/

namespace Sys2Proof.Machine

open Sys2Proof.Forms (withZN)

theorem getLsbD_zero (v : Byte) : v.getLsbD 0 = decide (v.toNat % 2 = 1) :=
  Nat.testBit_zero v.toNat

/-- A carry widened to a byte is its number. -/
theorem setWidth_ofBool_eq (c : Bool) : (BitVec.ofBool c).setWidth 8 = BitVec.ofNat 8 c.toNat := by
  cases c <;> rfl

theorem setWidth_ofBool_shiftLeft_eq (c : Bool) :
    (BitVec.ofBool c).setWidth 8 <<< 7 = BitVec.ofNat 8 (2 ^ 7 * c.toNat) := by
  cases c <;> rfl

theorem shiftLeft_one_eq (v : Byte) : v <<< 1 = BitVec.ofNat 8 (2 * v.toNat) := by
  apply BitVec.eq_of_toNat_eq
  rw [BitVec.toNat_shiftLeft, Nat.shiftLeft_eq, BitVec.toNat_ofNat, Nat.mul_comm]

theorem ushiftRight_one_eq (v : Byte) : v >>> 1 = BitVec.ofNat 8 (v.toNat / 2) := by
  have hv := v.isLt
  apply BitVec.eq_of_toNat_eq
  rw [BitVec.toNat_ushiftRight, Nat.shiftRight_eq_div_pow, BitVec.toNat_ofNat]
  omega

/-- Bit 0 of a doubled byte is clear: OR adds the carry (R113). -/
theorem rotateLeft_eq (v : Byte) (c : Bool) :
    v <<< 1 ||| (BitVec.ofBool c).setWidth 8 = BitVec.ofNat 8 (2 * v.toNat + c.toNat) := by
  have h : 2 * v.toNat + c.toNat = 2 * v.toNat ||| c.toNat := Nat.two_pow_add_eq_or_of_lt (i := 1) c.toNat_lt v.toNat
  rw [h, BitVec.ofNat_or, shiftLeft_one_eq, setWidth_ofBool_eq]

/-- Bit 7 of a halved byte is clear: OR adds 128 for the carry (R114). -/
theorem rotateRight_eq (v : Byte) (c : Bool) :
    v >>> 1 ||| (BitVec.ofBool c).setWidth 8 <<< 7 = BitVec.ofNat 8 (v.toNat / 2 + 128 * c.toNat) := by
  have hv : v.toNat / 2 < 2 ^ 7 := Nat.div_lt_of_lt_mul v.isLt
  have h : v.toNat / 2 + 128 * c.toNat = 2 ^ 7 * c.toNat ||| v.toNat / 2 := by
    rw [Nat.add_comm]
    exact Nat.two_pow_add_eq_or_of_lt hv c.toNat
  rw [h, Nat.or_comm, BitVec.ofNat_or, ushiftRight_one_eq, setWidth_ofBool_shiftLeft_eq]

/-- What a shift or rotate gives: the byte `r`, and the flags with Z and N of `r` and C the bit shifted out (R111 to
R114). -/
def shifted (p : Status) (out : Byte × Bool) : Byte × Status :=
  (out.1, { withZN p out.1 with c := out.2 })

theorem setZN_carry_eq_shifted (p : Status) (r : Byte) (c : Bool) :
    (r, { p with c := c }.setZN r) = shifted p (r, c) := by
  rw [Status.setZN_eq_withZN]
  rfl

theorem aslOp_eq (v : Byte) (p : Status) :
    aslOp v p = shifted p (BitVec.ofNat 8 (2 * v.toNat), decide (128 ≤ v.toNat)) := by
  rw [aslOp, setZN_carry_eq_shifted, shiftLeft_one_eq, getLsbD_seven]

theorem lsrOp_eq (v : Byte) (p : Status) :
    lsrOp v p = shifted p (BitVec.ofNat 8 (v.toNat / 2), decide (v.toNat % 2 = 1)) := by
  rw [lsrOp, setZN_carry_eq_shifted, ushiftRight_one_eq, getLsbD_zero]

theorem rolOp_eq (v : Byte) (p : Status) :
    rolOp v p = shifted p (BitVec.ofNat 8 (2 * v.toNat + p.c.toNat), decide (128 ≤ v.toNat)) := by
  rw [rolOp, setZN_carry_eq_shifted, rotateLeft_eq, getLsbD_seven]

theorem rorOp_eq (v : Byte) (p : Status) :
    rorOp v p = shifted p (BitVec.ofNat 8 (v.toNat / 2 + 128 * p.c.toNat), decide (v.toNat % 2 = 1)) := by
  rw [rorOp, setZN_carry_eq_shifted, rotateRight_eq, getLsbD_zero]

theorem add_one_eq (v : Byte) : v + 1 = BitVec.ofNat 8 (v.toNat + 1) := rfl

/-- One less is 255 more modulo 256 (R116). -/
theorem sub_one_eq (v : Byte) : v - 1 = BitVec.ofNat 8 (v.toNat + 255) := by
  rw [Nat.add_comm]
  rfl

end Sys2Proof.Machine

namespace Sys2Proof

open Machine Forms

/-- A mnemonic with memory forms and an accumulator form does one operation, on the byte read and on A (R110). -/
theorem exec_forms_and_acc {op : Byte → Status → Byte × Status} {out : Byte → Byte × Bool} {forms : List EaForm}
    {acc : Instr} {s : State} (hforms : forms.Forall (EaForm.HasOp op)) (hacc : exec acc = accClass op 2)
    (hop : ∀ v, op v s.p = shifted s.p (out v)) :
    (∀ f ∈ forms, exec f.instr s = .next (f.modified s (out (f.operand s)).1
      { withZN s.p (out (f.operand s)).1 with c := (out (f.operand s)).2 })) ∧
    exec acc s = .next (accModified s (out s.a).1 { withZN s.p (out s.a).1 with c := (out s.a).2 }) := by
  refine ⟨fun f hf => ?_, ?_⟩
  · rw [EaForm.exec_of_mem hforms hf, hop]
    rfl
  · rw [hacc, accClass, hop]
    rfl

/-- Settles O24: each mnemonic is one operation in every form, and each operation is its arithmetic. -/
theorem shiftResult : Obligations.ShiftResult := by
  intro b w s asl lsr rol ror op forms acc h
  simp only [List.mem_cons, List.not_mem_nil, or_false, Prod.mk.injEq] at h
  obtain ⟨rfl, rfl, rfl⟩ | ⟨rfl, rfl, rfl⟩ | ⟨rfl, rfl, rfl⟩ | ⟨rfl, rfl, rfl⟩ := h
  · exact exec_forms_and_acc (aslForms_op b w) rfl (aslOp_eq · s.p)
  · exact exec_forms_and_acc (lsrForms_op b w) rfl (lsrOp_eq · s.p)
  · exact exec_forms_and_acc (rolForms_op b w) rfl (rolOp_eq · s.p)
  · exact exec_forms_and_acc (rorForms_op b w) rfl (rorOp_eq · s.p)

/-- Settles O25: said with `v + 1`, `v - 1` and `setZN`, each clause is the instruction's own operation. -/
theorem incDecResult : Obligations.IncDecResult := by
  intro b w s up down
  have hup (v : Byte) : up v = v + 1 := (add_one_eq v).symm
  have hdown (v : Byte) : down v = v - 1 := (sub_one_eq v).symm
  simp only [hup, hdown, ← Status.setZN_eq_withZN]
  exact ⟨fun f hf => EaForm.exec_of_mem (incForms_op b w) hf s, fun f hf => EaForm.exec_of_mem (decForms_op b w) hf s,
    rfl, rfl, rfl, rfl⟩

end Sys2Proof

/-! The stores, and what a store or a read-modify-write instruction leaves in memory (43_store R130 to R133,
42_shift_incdec R110). -/

namespace Sys2Proof.Forms

open Sys2Proof.Machine

namespace EaForm

/-- The form is a store of this register. -/
def Stores (value : State → Byte) (f : EaForm) : Prop :=
  exec f.instr = writeClass value f.mode f.base

/-- Running the form takes `s` to `t` by reads and then one write at its effective address: nothing else changes but PC,
the flags and the count of cycles (R110, R130). -/
def WritesOnce (f : EaForm) (s t : State) : Prop :=
  ∃ v p answers bus, t =
    { State.memWrite { s with answers := answers, bus := bus } (f.resolved s).ea v with
      pc := f.npc s, p := p, cycles := f.base }

/-- After its mode's reads a form's state is the first one with PC at `npc`, but for the answers and the transactions. -/
theorem resolved_state (f : EaForm) (s : State) :
    ∃ answers bus, (f.resolved s).state = { s with pc := f.npc s, answers := answers, bus := bus } :=
  resolve_reads f.mode (s.advance (width f.mode.mode))

/-- A store completes with one write of its register at the effective address (R130). -/
theorem exec_of_stores {value : State → Byte} {forms : List EaForm} (hforms : forms.Forall (Stores value)) {f : EaForm}
    (hf : f ∈ forms) (s : State) :
    exec f.instr s =
      .next { (f.resolved s).state.memWrite (f.resolved s).ea (value s) with pc := f.npc s, cycles := f.base } := by
  have h : f.Stores value := List.forall_iff_forall_mem.mp hforms f hf
  rw [h, ← f.resolved_pc]
  rfl

theorem writesOnce_of_stores {value : State → Byte} {forms : List EaForm} (hforms : forms.Forall (Stores value))
    {f : EaForm} (hf : f ∈ forms) {s t : State} (h : exec f.instr s = .next t) : f.WritesOnce s t := by
  obtain ⟨answers, bus, hr⟩ := f.resolved_state s
  rw [exec_of_stores hforms hf, hr] at h
  exact ⟨value s, s.p, answers, bus, (Host.Outcome.next.inj h).symm⟩

theorem writesOnce_of_hasOp {op : Byte → Status → Byte × Status} {forms : List EaForm} (hforms : forms.Forall (HasOp op))
    {f : EaForm} (hf : f ∈ forms) {s t : State} (h : exec f.instr s = .next t) : f.WritesOnce s t := by
  obtain ⟨answers, bus, hr⟩ := f.resolved_state s
  rw [exec_of_mem hforms hf, modified, hr] at h
  exact ⟨_, _, _, _, (Host.Outcome.next.inj h).symm⟩

namespace WritesOnce

variable {f : EaForm} {s t : State}

theorem byteAt_of_cell_ne (h : f.WritesOnce s t) {a : Addr} (ha : s.cell a ≠ s.cell (f.resolved s).ea) :
    t.byteAt a = s.byteAt a := by
  obtain ⟨v, p, answers, bus, rfl⟩ := h
  exact State.byteAt_memWrite_ne (s := { s with answers := answers, bus := bus }) v ha

/-- Outside RAM the write is dropped (20_memory R44). -/
theorem byteAt_of_le (h : f.WritesOnce s t) (hea : 0x2000 ≤ (f.resolved s).ea.toNat) (a : Addr) :
    t.byteAt a = s.byteAt a := by
  obtain ⟨v, p, answers, bus, rfl⟩ := h
  exact State.byteAt_memWrite_of_le { s with answers := answers, bus := bus } v a hea

/-- In RAM the byte of the last transaction stands at the effective address (20_memory R40). -/
theorem byteAt_ea (h : f.WritesOnce s t) (hea : (f.resolved s).ea.toNat < 0x2000) :
    ∃ v rest, t.bus = .write (f.resolved s).ea v :: rest ∧ t.byteAt (f.resolved s).ea = some v := by
  obtain ⟨v, p, answers, bus, rfl⟩ := h
  exact ⟨v, bus, rfl, State.byteAt_memWrite_alias (s := { s with answers := answers, bus := bus }) v
    (s.mapper.backing_ram hea) (s.cell_ram hea)⟩

end WritesOnce

end EaForm

open EaForm (Stores)

variable (b : Byte) (w : Addr)

theorem staForms_stores : (staForms b w).Forall (Stores State.a) := ⟨rfl, rfl, rfl, rfl, rfl, rfl, rfl⟩
theorem stxForms_stores : (stxForms b w).Forall (Stores State.x) := ⟨rfl, rfl, rfl⟩
theorem styForms_stores : (styForms b w).Forall (Stores State.y) := ⟨rfl, rfl, rfl⟩

/-- Every form of the stores and of the read-modify-write instructions writes once. -/
theorem writesOnce_of_mem {b : Byte} {w : Addr} {f : EaForm}
    (hf : f ∈ staForms b w ++ stxForms b w ++ styForms b w ++ allRmwForms b w) {s t : State}
    (h : exec f.instr s = .next t) : f.WritesOnce s t := by
  simp only [allRmwForms, List.mem_append] at hf
  obtain ((hsta | hstx) | hsty) | ((((hasl | hlsr) | hrol) | hror) | hinc) | hdec := hf
  · exact EaForm.writesOnce_of_stores (staForms_stores b w) hsta h
  · exact EaForm.writesOnce_of_stores (stxForms_stores b w) hstx h
  · exact EaForm.writesOnce_of_stores (styForms_stores b w) hsty h
  · exact EaForm.writesOnce_of_hasOp (aslForms_op b w) hasl h
  · exact EaForm.writesOnce_of_hasOp (lsrForms_op b w) hlsr h
  · exact EaForm.writesOnce_of_hasOp (rolForms_op b w) hrol h
  · exact EaForm.writesOnce_of_hasOp (rorForms_op b w) hror h
  · exact EaForm.writesOnce_of_hasOp (incForms_op b w) hinc h
  · exact EaForm.writesOnce_of_hasOp (decForms_op b w) hdec h

end Sys2Proof.Forms

namespace Sys2Proof

open Machine Forms

/-- Settles O27: the instruction is one write at its effective address, after reads that change no stored byte. -/
theorem storesChangeOnlyTheirCell : Obligations.StoresChangeOnlyTheirCell := by
  intro b w s t f hf h
  have hwrite := writesOnce_of_mem hf h
  exact ⟨fun _ => hwrite.byteAt_of_cell_ne, hwrite.byteAt_of_le, hwrite.byteAt_ea⟩

/-- Settles O26: the stores of A, of X and of Y. -/
theorem storeResult : Obligations.StoreResult := by
  intro b w s f r h
  obtain ⟨hf, rfl⟩ | ⟨hf, rfl⟩ | ⟨hf, rfl⟩ := h
  · exact EaForm.exec_of_stores (staForms_stores b w) hf s
  · exact EaForm.exec_of_stores (stxForms_stores b w) hf s
  · exact EaForm.exec_of_stores (styForms_stores b w) hf s

end Sys2Proof

/-! The branches: the target and the cycles as numbers, and each branch with its condition (44_branch R135 to R143). -/

namespace Sys2Proof.Machine

/-- The sign-extended offset is added modulo 65536 (R83). -/
theorem branchTarget_eq (npc : Addr) (off : Byte) : branchTarget npc off = BitVec.ofInt 16 (npc.toNat + off.toInt) := by
  rw [BitVec.ofInt_add, BitVec.ofInt_natCast, BitVec.ofNat_toNat, BitVec.setWidth_eq]
  rfl

/-- A taken branch costs 3 cycles, or 4 when its target lies in another page than `npc` (70_reset R253). -/
theorem takenCycles_eq (npc target : Addr) :
    2 + 1 + penalty true (pageCrossed npc target) = if target.toNat / 256 ≠ npc.toNat / 256 then 4 else 3 := by
  simp only [penalty, Bool.true_and, pageCrossed_iff]
  split <;> rfl

theorem branchClass_taken (off : Byte) (s : State) :
    branchClass true off s =
      .next { s with
        pc := branchTarget (s.pc + 2) off
        cycles := 2 + 1 + penalty true (pageCrossed (s.pc + 2) (branchTarget (s.pc + 2) off)) } := rfl

theorem branchClass_notTaken (off : Byte) (s : State) :
    branchClass false off s = .next { s with pc := s.pc + 2, cycles := 2 } := rfl

end Sys2Proof.Machine

namespace Sys2Proof

open Machine Forms

/-- Each of the eight branches is the common shape with its own condition (R136 to R143). -/
theorem branchForms_exec (off : Byte) (s : State) :
    (branchForms off s.p).Forall fun f => exec f.1 s = branchClass f.2 off s := by
  simp only [branchForms, Bool.decide_eq_true, Bool.decide_eq_false]
  exact ⟨rfl, rfl, rfl, rfl, rfl, rfl, rfl, rfl⟩

/-- Settles O28: every branch is the common shape, whose target and cycles are the rule's numbers. -/
theorem branchResult : Obligations.BranchResult := by
  intro off s f hf npc target
  have hexec : exec f.1 s = branchClass f.2 off s := List.forall_iff_forall_mem.mp (branchForms_exec off s) f hf
  rw [hexec]
  refine ⟨fun htaken => ?_, fun hnot => ?_⟩
  · rw [htaken, branchClass_taken, takenCycles_eq, branchTarget_eq]
  · rw [hnot, branchClass_notTaken]

end Sys2Proof

/-! The bytes of a pushed word in page 1, and the word that a pull of two bytes gives (20_memory R32, R35, R36). -/

namespace Sys2Proof.Machine

theorem lo8_eq_ofNat (w : Addr) : lo8 w = BitVec.ofNat 8 (w.toNat % 256) := by
  rw [← toNat_lo8, BitVec.ofNat_toNat, BitVec.setWidth_eq]

theorem hi8_eq_ofNat (w : Addr) : hi8 w = BitVec.ofNat 8 (w.toNat / 256) := by
  rw [← toNat_hi8, BitVec.ofNat_toNat, BitVec.setWidth_eq]

theorem word_eq_ofNat (lo hi : Byte) : word lo hi = BitVec.ofNat 16 (hi.toNat * 256 + lo.toNat) := by
  rw [← toNat_word, BitVec.ofNat_toNat, BitVec.setWidth_eq]

/-- The return address that RTS takes, as one number (45_jump_return R152). -/
theorem word_add_one_eq_ofNat (lo hi : Byte) : word lo hi + 1 = BitVec.ofNat 16 (hi.toNat * 256 + lo.toNat + 1) := by
  rw [word_eq_ofNat]
  exact (BitVec.ofNat_add _ 1).symm

namespace State

theorem cell_stackAddr (s : State) (sp : Byte) : s.cell (stackAddr sp) = some (0x0100 + sp.toNat) :=
  congrArg Backing.cell (backing_stackAddr s.mapper sp)

/-- Two values of SP name two stack cells (10_state R12). -/
theorem cell_stackAddr_ne (s : State) {sp sp' : Byte} (h : sp ≠ sp') :
    s.cell (stackAddr sp) ≠ s.cell (stackAddr sp') := by
  rwa [s.cell_stackAddr, s.cell_stackAddr, ne_eq, Option.some.injEq, Nat.add_left_cancel_iff, ← BitVec.toNat_eq]

/-- The low byte of a pushed word is the last one pushed (20_memory R32). -/
theorem byteAt_pushWord_low (s : State) (w : Addr) : (s.pushWord w).byteAt (stackAddr (s.sp - 1)) = some (lo8 w) :=
  (s.push (hi8 w)).byteAt_push_same (lo8 w)

/-- The high byte of a pushed word is the first one pushed, and the second push names another cell (20_memory R32). -/
theorem byteAt_pushWord_high (s : State) (w : Addr) : (s.pushWord w).byteAt (stackAddr s.sp) = some (hi8 w) := by
  have hsp : s.sp ≠ s.sp - 1 := by bv_omega
  calc (s.pushWord w).byteAt (stackAddr s.sp)
    _ = (s.push (hi8 w)).byteAt (stackAddr s.sp) := byteAt_push_ne (lo8 w) ((s.push (hi8 w)).cell_stackAddr_ne hsp)
    _ = some (hi8 w) := s.byteAt_push_same (hi8 w)

/-- Where the two cells above SP hold `lo` and `hi`, the pulled word is `word lo hi` (20_memory R32, R36). -/
theorem pullWord_value_of_byteAt {s : State} {lo hi : Byte} (hlo : s.byteAt (stackAddr (s.sp + 1)) = some lo)
    (hhi : s.byteAt (stackAddr (s.sp + 1 + 1)) = some hi) : s.pullWord.1 = word lo hi := by
  have h1 : s.pull.1 = lo := answer_of_byteAt hlo
  have h2 : s.pull.2.pull.1 = hi := by
    rw [pull_value, pull_sp]
    exact answer_of_byteAt hhi
  rw [pullWord, h1, h2]

end State

/-! JMP, JSR, RTS and RTI (45_jump_return R150 to R153). -/

theorem exec_jsrAbs (w : Addr) (s : State) : exec (.jsrAbs w) s = .next ((callTo w s).charge 6) := rfl

theorem exec_rts (s : State) : exec .rts s = .next ((returnFrom (s.advance 1)).charge 6) := rfl

theorem callTo_byteAt (w : Addr) (s : State) (a : Addr) : (callTo w s).byteAt a = (s.pushWord (s.pc + 2)).byteAt a :=
  State.byteAt_congr rfl rfl a

theorem callTo_sp (w : Addr) (s : State) : (callTo w s).sp = s.sp - 1 - 1 := rfl

/-- A call leaves the bytes of `pc0 + 2` in the two stack cells it pushes to (R151). -/
theorem callTo_byteAt_low (w : Addr) (s : State) :
    (callTo w s).byteAt (stackAddr (s.sp - 1)) = some (lo8 (s.pc + 2)) :=
  (callTo_byteAt w s _).trans (s.byteAt_pushWord_low (s.pc + 2))

theorem callTo_byteAt_high (w : Addr) (s : State) : (callTo w s).byteAt (stackAddr s.sp) = some (hi8 (s.pc + 2)) :=
  (callTo_byteAt w s _).trans (s.byteAt_pushWord_high (s.pc + 2))

theorem returnFrom_sp (s : State) : (returnFrom s).sp = s.sp + 1 + 1 := rfl

/-- A return to the bytes of `w` in the two cells above SP continues at `w + 1` (R152). -/
theorem returnFrom_pc_of_byteAt {s : State} {w : Addr} (hlo : s.byteAt (stackAddr (s.sp + 1)) = some (lo8 w))
    (hhi : s.byteAt (stackAddr (s.sp + 1 + 1)) = some (hi8 w)) : (returnFrom s).pc = w + 1 := by
  show s.pullWord.1 + 1 = w + 1
  rw [State.pullWord_value_of_byteAt hlo hhi, word_lo8_hi8]

end Sys2Proof.Machine

namespace Sys2Proof

open Machine

/-- Settles O32: with SP two lower, the two cells above SP are the ones the call pushed to, and they hold `pc0 + 2`. -/
theorem jsrThenRtsComesBack : Obligations.JsrThenRtsComesBack := by
  intro w s t u hcall hsp hhi hlo
  rw [exec_jsrAbs, Host.Outcome.next.injEq] at hcall
  subst hcall
  have hup : u.sp + 1 = s.sp - 1 := by rw [hsp, State.charge_sp, callTo_sp, BitVec.sub_add_cancel]
  have htop : u.sp + 1 + 1 = s.sp := by rw [hup, BitVec.sub_add_cancel]
  have hpc : (returnFrom (u.advance 1)).pc = s.pc + 2 + 1 := by
    refine returnFrom_pc_of_byteAt ?_ ?_
    · rw [State.advance_sp, hup]
      exact hlo.trans (callTo_byteAt_low w s)
    · rw [State.advance_sp, htop]
      exact hhi.trans (callTo_byteAt_high w s)
  refine ⟨_, exec_rts u, ?_, ?_⟩
  · rw [State.charge_pc, hpc, BitVec.add_assoc]
    rfl
  · rw [State.charge_sp, returnFrom_sp, State.advance_sp, htop]

/-- Settles O29: the pointer reads of a jump do not depend on PC, and a call pushes the two bytes of `pc0 + 2`. -/
theorem jumpAndCallResult : Obligations.JumpAndCallResult := by
  intro w s ret
  refine ⟨rfl, rfl, ?_⟩
  rw [← hi8_eq_ofNat, ← lo8_eq_ofNat]
  rfl

/-- Settles O30: the instruction pulls a word and adds one, which is the rule's number. -/
theorem rtsResult : Obligations.RtsResult := by
  intro s lo hi
  rw [← word_add_one_eq_ofNat]
  rfl

/-- Settles O31: the instruction is the return from an interrupt, whose PC is the rule's number. -/
theorem rtiResult : Obligations.RtiResult := by
  intro s p lo hi
  rw [← word_eq_ofNat]
  rfl

end Sys2Proof

/-! PHA, PHP, PLA and PLP: the stack operations do not depend on PC, so the advance of PC can be made last
(46_stack R160 to R163). -/

namespace Sys2Proof.Machine

namespace State

theorem push_advance (s : State) (len : Nat) (v : Byte) : (s.advance len).push v = (s.push v).advance len := rfl

theorem pull_advance (s : State) (len : Nat) : (s.advance len).pull = (s.pull.1, s.pull.2.advance len) := rfl

end State

theorem pullA_advance (s : State) (len : Nat) : pullA (s.advance len) = (pullA s).advance len := by
  rw [pullA, State.pull_advance]
  rfl

theorem pullP_advance (s : State) (len : Nat) : pullP (s.advance len) = (pullP s).advance len := by
  rw [pullP, State.pull_advance]
  rfl

/-- An effect that does not depend on PC is done from the state before the instruction. -/
theorem implicitClass_of_advance (effect : State → State) {s : State} (base : Nat)
    (h : effect (s.advance 1) = (effect s).advance 1) :
    implicitClass effect base s = .next (((effect s).advance 1).charge base) := by
  rw [implicitClass, h]

theorem exec_pha (s : State) : exec .pha s = .next (((s.push s.a).advance 1).charge 3) :=
  implicitClass_of_advance (fun t => t.push t.a) 3 (s.push_advance 1 s.a)

theorem exec_php (s : State) : exec .php s = .next (((s.push s.p.imageSet).advance 1).charge 3) :=
  implicitClass_of_advance (fun t => t.push t.p.imageSet) 3 (s.push_advance 1 s.p.imageSet)

theorem exec_pla (s : State) : exec .pla s = .next (((pullA s).advance 1).charge 4) :=
  implicitClass_of_advance pullA 4 (pullA_advance s 1)

theorem exec_plp (s : State) : exec .plp s = .next (((pullP s).advance 1).charge 4) :=
  implicitClass_of_advance pullP 4 (pullP_advance s 1)

end Sys2Proof.Machine

namespace Sys2Proof

open Machine

/-- Settles O33: each instruction is its push or pull from the state before it, with PC and the cycles written last. -/
theorem stackInstructionResult : Obligations.StackInstructionResult := by
  intro s
  refine ⟨?_, ?_, ?_, ?_⟩
  · rw [exec_pha]
    rfl
  · rw [exec_php, Status.imageSet]
    rfl
  · rw [exec_pla, pullA, Status.setZN_eq_withZN]
    rfl
  · rw [exec_plp, pullP, Status.ofByte]
    rfl

end Sys2Proof

/-! Transfers, flag instructions and NOP (47_transfer R170 to R176, 48_flags R180 to R187, 49_brk_nop R191). -/

namespace Sys2Proof

open Machine Forms

/-- Settles O34: each transfer copies its register, with `SetZN` of the copy except in TXS. -/
theorem transferResult : Obligations.TransferResult := by
  intro s
  simp only [← Status.setZN_eq_withZN]
  exact ⟨rfl, rfl, rfl, rfl, rfl, rfl⟩

/-- Settles O35: each of the seven writes its own flag. -/
theorem flagInstructionResult : Obligations.FlagInstructionResult := by
  intro s i p h
  simp only [List.mem_cons, List.not_mem_nil, or_false, Prod.mk.injEq] at h
  obtain ⟨rfl, rfl⟩ | ⟨rfl, rfl⟩ | ⟨rfl, rfl⟩ | ⟨rfl, rfl⟩ | ⟨rfl, rfl⟩ | ⟨rfl, rfl⟩ | ⟨rfl, rfl⟩ := h <;> rfl

/-- Settles O38: NOP's effect is the identity. -/
theorem nopOnlyAdvances : Obligations.NopOnlyAdvances := fun _ => rfl

end Sys2Proof

/-! Taking an exception and returning from it (49_brk_nop R190; 60_exceptions R205, R208; 45_jump_return R153). -/

namespace Sys2Proof.Machine

namespace Status

/-- The image BRK pushes loads back with B set (10_state R15, R16). -/
theorem ofByte_imageSet (p : Status) : ofByte p.imageSet = { p with b := true } := by
  have h : ∀ v : Byte, ofByte (v ||| 0x30) = { ofByte v with b := true } := fun v => by simp [ofByte]
  rw [imageSet, h, ofByte_toByte]

/-- The image NMI service pushes is P as it is, since bit 5 is set already (10_state R14, R15). -/
theorem imageAsIs_eq_toByte (p : Status) : p.imageAsIs = p.toByte := by
  rw [imageAsIs, ← toByte_ofByte, ofByte_toByte]

end Status

namespace State

/-- An entry with its pushed word and its vector's word as numbers; the mark is made last, since the vector's reads do not
depend on it. -/
theorem enter_eq_ofNat (s : State) (e : Entry) (ret : Addr) :
    let pushed := ((s.push (BitVec.ofNat 8 (ret.toNat / 256))).push (BitVec.ofNat 8 (ret.toNat % 256))).push (e.image s.p)
    let lo := pushed.memRead e.vector
    let hi := lo.2.memRead (e.vector + 1)
    s.enter e ret = { e.mark hi.2 with pc := BitVec.ofNat 16 (hi.1.toNat * 256 + lo.1.toNat) } := by
  simp only [← hi8_eq_ofNat, ← lo8_eq_ofNat, ← word_eq_ofNat]
  cases e <;> rfl

/-- Beyond its three pushes an entry changes no stored byte. -/
theorem byteAt_enter (s : State) (e : Entry) (ret a : Addr) :
    (s.enter e ret).byteAt a = ((s.pushWord ret).push (e.image s.p)).byteAt a := by
  cases e <;> rfl

/-- The 7 cycles of an entry turn the parity (60_exceptions R200, 70_reset R254). -/
theorem account_charge_seven (s : State) : (s.charge 7).account = { s with cycles := 7, cycOdd := !s.cycOdd } := by
  have h : (s.cycOdd ^^ oddCount 7) = !s.cycOdd := Bool.xor_true _
  rw [account, charge_cycOdd, charge_cycles, h]
  rfl

theorem enter_sp (s : State) (e : Entry) (ret : Addr) : (s.enter e ret).sp = s.sp - 1 - 1 - 1 := by
  obtain ⟨-, -, -, hsp, -⟩ := s.enter_frame e ret
  exact hsp

theorem byteAt_enter_image (s : State) (e : Entry) (ret : Addr) :
    (s.enter e ret).byteAt (stackAddr (s.sp - 1 - 1)) = some (e.image s.p) :=
  (s.byteAt_enter e ret _).trans ((s.pushWord ret).byteAt_push_same (e.image s.p))

theorem byteAt_enter_low (s : State) (e : Entry) (ret : Addr) :
    (s.enter e ret).byteAt (stackAddr (s.sp - 1)) = some (lo8 ret) := by
  have hsp : s.sp - 1 ≠ s.sp - 1 - 1 := by bv_omega
  rw [byteAt_enter, byteAt_push_ne _ ((s.pushWord ret).cell_stackAddr_ne hsp), byteAt_pushWord_low]

theorem byteAt_enter_high (s : State) (e : Entry) (ret : Addr) :
    (s.enter e ret).byteAt (stackAddr s.sp) = some (hi8 ret) := by
  have hsp : s.sp ≠ s.sp - 1 - 1 := by bv_omega
  rw [byteAt_enter, byteAt_push_ne _ ((s.pushWord ret).cell_stackAddr_ne hsp), byteAt_pushWord_high]

/-- Where the three cells above SP hold an image and the bytes of `ret`, a return loads the one and goes to the other
(R153). -/
theorem leave_of_byteAt {u : State} {image : Byte} {ret : Addr} (himage : u.byteAt (stackAddr (u.sp + 1)) = some image)
    (hlo : u.byteAt (stackAddr (u.sp + 1 + 1)) = some (lo8 ret))
    (hhi : u.byteAt (stackAddr (u.sp + 1 + 1 + 1)) = some (hi8 ret)) :
    u.leave.p = Status.ofByte image ∧ u.leave.pc = ret := by
  refine ⟨congrArg Status.ofByte (answer_of_byteAt himage), ?_⟩
  have hpc : { u.pull.2 with p := Status.ofByte u.pull.1 }.pullWord.1 = word (lo8 ret) (hi8 ret) :=
    pullWord_value_of_byteAt hlo hhi
  exact hpc.trans (word_lo8_hi8 ret)

end State

theorem exec_rti (s : State) : exec .rti s = .next ((s.advance 1).leave.charge 6) := rfl

theorem exec_brk (s : State) : exec .brk s = .next ((s.enter .brk (s.pc + 2)).charge 7) := rfl

/-- An RTI that finds SP and the three stack bytes as an entry left them goes back to the return address with the SP of
before the entry, and loads the pushed image (R153, R208). -/
theorem rti_undoes_enter {s u : State} {e : Entry} {ret : Addr} (hsp : u.sp = (s.enter e ret).sp)
    (hstack : ∀ k ∈ [s.sp, s.sp - 1, s.sp - 2], u.byteAt (stackAddr k) = (s.enter e ret).byteAt (stackAddr k)) :
    ∃ r, exec .rti u = .next r ∧ r.pc = ret ∧ r.sp = s.sp ∧ r.p = Status.ofByte (e.image s.p) ∧ r.svcNmi = false := by
  have htwo : s.sp - 2 = s.sp - 1 - 1 := (BitVec.sub_sub s.sp 1 1).symm
  simp only [List.forall_mem_cons, htwo, s.byteAt_enter_high, s.byteAt_enter_low, s.byteAt_enter_image] at hstack
  obtain ⟨hhi, hlo, himage, -⟩ := hstack
  have h1 : (u.advance 1).sp + 1 = s.sp - 1 - 1 := by rw [State.advance_sp, hsp, State.enter_sp, BitVec.sub_add_cancel]
  have h2 : (u.advance 1).sp + 1 + 1 = s.sp - 1 := by rw [h1, BitVec.sub_add_cancel]
  have h3 : (u.advance 1).sp + 1 + 1 + 1 = s.sp := by rw [h2, BitVec.sub_add_cancel]
  have ⟨hp, hpc⟩ := State.leave_of_byteAt (u := u.advance 1) (h1 ▸ himage) (h2 ▸ hlo) (h3 ▸ hhi)
  exact ⟨_, exec_rti u, hpc, h3, hp, rfl⟩

end Sys2Proof.Machine

namespace Sys2Proof

open Machine Forms

/-- Settles O36: the entry with `pc0 + 2` as its return address. -/
theorem brkTakesTheException : Obligations.BrkTakesTheException := by
  intro s ret t lo hi
  rw [exec_brk, State.enter_eq_ofNat]
  rfl

/-- Settles O37: the return undoes the entry, and the image BRK pushes loads with B set. -/
theorem brkThenRtiResumes : Obligations.BrkThenRtiResumes := by
  intro s t u hbrk hsp hstack
  rw [exec_brk, Host.Outcome.next.injEq] at hbrk
  subst hbrk
  have h := rti_undoes_enter hsp hstack
  rwa [Entry.image, Status.ofByte_imageSet] at h

end Sys2Proof

/-! The stages of a step and the service of an NMI edge (60_exceptions R200, R205, R208). -/

namespace Sys2Proof.Machine

section Stages

variable {s : State} (k : Params)

theorem stepResult_of_halted {f : Fault} (hf : s.fault = some f) : stepResult k s = .fault f s := by
  rw [stepResult, hf]

theorem stepResult_of_nmi (hf : s.fault = none) (hpending : s.nmiPending = true) (hen : s.nmiEn = true) :
    stepResult k s = .next s.begin.serviceNmi.account := by
  simp [stepResult, hf, hpending, hen]

theorem stepResult_of_dma (hf : s.fault = none) (hnmi : (s.nmiPending && s.nmiEn) = false) (hdma : s.dmaPending = true) :
    stepResult k s = .next (s.begin.gateNmi k.nmiPolicy).serviceDma.account := by
  simp [stepResult, hf, hnmi, State.gateNmi_eq, hdma]

theorem stepResult_of_runs (h : Forms.RunsInstruction s) :
    stepResult k s = executeInstruction k (s.begin.gateNmi k.nmiPolicy) := by
  obtain ⟨hf, hnmi, hdma⟩ := h
  simp [stepResult, hf, hnmi, State.gateNmi_eq, hdma]

end Stages

/-- Where no edge is served, the policy alone decides on a latched edge (60_exceptions R206). -/
theorem gateNmi_of_not_served {s : State} (policy : NmiPolicy) (hnmi : (s.nmiPending && s.nmiEn) = false) :
    s.gateNmi policy = { s with nmiPending := s.nmiPending && decide (policy = .hold) } := by
  rw [State.gateNmi_eq, Bool.and_or_distrib_left, hnmi, Bool.false_or]

theorem step_of_next {s t : State} (h : stepResult Params.hardware s = .next t) : step s = .next t :=
  stepWith_next.mpr h

end Sys2Proof.Machine

namespace Sys2Proof

open Machine Forms

/-- Settles O46: the entry from PC, whose 7 cycles turn the parity. -/
theorem nmiService : Obligations.NmiService := by
  intro s hf hpending hen t lo hi
  rw [step_of_next (stepResult_of_nmi _ hf hpending hen), State.serviceNmi, State.account_charge_seven, State.enter_cycOdd,
    State.begin_cycOdd, State.begin_pc, State.enter_eq_ofNat, State.begin_p]
  rfl

/-- Settles O47: the return undoes the entry, and the image NMI service pushes loads as P itself. -/
theorem nmiThenRtiRestores : Obligations.NmiThenRtiRestores := by
  intro s t u hf hpending hen hstep hsp hstack
  rw [step_of_next (stepResult_of_nmi _ hf hpending hen), Host.Outcome.next.injEq] at hstep
  subst hstep
  have h := rti_undoes_enter (s := s.begin) (e := .nmi) (ret := s.pc) hsp hstack
  rwa [Entry.image, Status.imageAsIs_eq_toByte, Status.ofByte_toByte] at h

end Sys2Proof

/-! Arbitration, and the halted machine (60_exceptions R200, R203, R214, R226). -/

namespace Sys2Proof.Machine

variable {k : Params} {s : State}

theorem step_of_halted {f : Fault} (hf : s.fault = some f) : step s = .fault f := by
  rw [step, stepWith, stepResult_of_halted _ hf]

theorem afterStep_of_fault {f : Fault} {t : State} (h : stepResult k s = .fault f t) : s.afterStep k = t := by
  rw [State.afterStep, h]

/-- A halted machine under events without a reset: a step does nothing, an edge sets its latch (R203, R226). -/
theorem runEvents_of_halted {f : Fault} {es : List Event} (hf : s.fault = some f) (hes : Event.reset ∉ es) :
    runEvents k es s = { s with nmiPending := s.nmiPending || decide (Event.raiseNmi ∈ es) } := by
  induction es generalizing s with
  | nil => simp [runEvents]
  | cons e es ih =>
    simp only [List.mem_cons, not_or] at hes
    obtain ⟨he, hes⟩ := hes
    cases e with
    | step =>
      have hstep : s.after k .step = s := afterStep_of_fault (stepResult_of_halted k hf)
      rw [runEvents, hstep, ih hf hes]
      simp
    | raiseNmi =>
      rw [runEvents, ih (s := s.after k .raiseNmi) hf hes]
      simp [State.after, State.raiseNmi]
    | reset => exact absurd rfl he

end Sys2Proof.Machine

namespace Sys2Proof

open Machine Forms

/-- Settles O45: each clause is a stage of the step, and the frame of what that stage runs. -/
theorem arbitrationOrder : Obligations.ArbitrationOrder := by
  intro s
  refine ⟨fun f hf => step_of_halted hf, fun hf hpending hen => ?_, fun hf hnmi hdma => ?_⟩
  · obtain ⟨-, -, -, -, -, hdma, hpage, -, -, -, hoam⟩ := s.begin.enter_frame .nmi s.pc
    exact ⟨_, step_of_next (stepResult_of_nmi _ hf hpending hen), rfl, rfl, rfl, hdma, hpage, hoam⟩
  · refine ⟨_, step_of_next (stepResult_of_dma _ hf hnmi hdma), rfl, ?_, ?_⟩
    · obtain ⟨oam, answers, bus, h⟩ := (s.begin.gateNmi Params.hardware.nmiPolicy).serviceDma_frame
      rw [h]
      exact State.gateNmi_pc _ s.begin
    · rw [State.account_cycles, State.serviceDma_cycles]
      split
      · exact .inr rfl
      · exact .inl rfl

/-- Settles O52: no event but a reset touches a halted machine, beyond the NMI latch. -/
theorem haltedUntilReset : Obligations.HaltedUntilReset := by
  intro k s f hf
  refine ⟨stepResult_of_halted k hf, fun es hes => ?_, rfl⟩
  rw [runEvents_of_halted hf hes]
  exact ⟨hf, rfl, rfl, rfl⟩

end Sys2Proof

/-! What an instruction step comes to, and who leaves and enters `SERVICING_NMI` (60_exceptions R201, R205, R207). -/

namespace Sys2Proof.Machine

open Sys2Proof.Forms (RunsInstruction)

variable {k : Params} {s t : State}

theorem executeInstruction_of_instr {i : Instr} {u : State} (hfetch : fetchInstr k s = .instr i u)
    (hexec : exec i u = .next t) : executeInstruction k s = .next t.account := by
  simp only [executeInstruction, hfetch, hexec]

/-- An instruction step is a fetch that stops, or a fetch and a completed instruction. -/
theorem executeInstruction_cases (k : Params) (s : State) :
    (∃ f u, fetchInstr k s = .stop f u ∧ executeInstruction k s = .fault f (u.halt f)) ∨
    (∃ i u v, fetchInstr k s = .instr i u ∧ exec i u = .next v ∧ executeInstruction k s = .next v.account) := by
  cases hf : fetchInstr k s with
  | stop f u => exact .inl ⟨f, u, rfl, executeInstruction_of_stop hf⟩
  | instr i u =>
    obtain ⟨v, hv⟩ := exec_answers_next i u
    exact .inr ⟨i, u, v, rfl, hv, executeInstruction_of_instr hf hv⟩

theorem eq_rti_of_mnemonic {i : Instr} (h : i.mnemonic = .RTI) : i = .rti := by
  cases i with
  | rti => rfl
  | _ => cases h

theorem exec_svcNmi {i : Instr} (h : exec i s = .next t) :
    (i = .rti ∧ t.svcNmi = false) ∨ t.svcNmi = s.svcNmi := by
  by_cases hi : i.mnemonic = .RTI
  · obtain rfl := eq_rti_of_mnemonic hi
    rw [exec_rti, Host.Outcome.next.injEq] at h
    exact .inl ⟨rfl, h ▸ rfl⟩
  · obtain ⟨-, -, -, -, -, hsvc, -⟩ := instructionsLeaveTheController i s t h
    exact .inr (hsvc hi)

/-- The service state after a call of `Step()`: entered by NMI service, left by a fetched RTI, kept by all else. -/
theorem afterStep_svcNmi (k : Params) (s : State) :
    (s.nmiPending = true ∧ s.nmiEn = true ∧ (s.afterStep k).svcNmi = true) ∨
    (RunsInstruction s ∧ (∃ u, fetchInstr k (s.begin.gateNmi k.nmiPolicy) = .instr .rti u) ∧
      (s.afterStep k).svcNmi = false) ∨
    (s.afterStep k).svcNmi = s.svcNmi := by
  have hgate : (s.begin.gateNmi k.nmiPolicy).svcNmi = s.svcNmi := by rw [State.gateNmi_eq]; rfl
  obtain ⟨f, -, hr⟩ | ⟨-, hpending, hen, hr⟩ | ⟨-, -, -, hr⟩ | ⟨hf, hnmi, hdma, hr⟩ := stepResult_cases k s
  case inl => exact .inr (.inr (by rw [afterStep_of_fault hr]))
  case inr.inl => exact .inl ⟨hpending, hen, by rw [afterStep_of_next hr]; rfl⟩
  case inr.inr.inl =>
    obtain ⟨oam, answers, bus, hdma⟩ := (s.begin.gateNmi k.nmiPolicy).serviceDma_frame
    refine .inr (.inr ?_)
    rw [afterStep_of_next hr, hdma]
    exact hgate
  case inr.inr.inr =>
    obtain ⟨f, u, hfetch, hx⟩ | ⟨i, u, v, hfetch, hexec, hx⟩ :=
      executeInstruction_cases k (s.begin.gateNmi k.nmiPolicy)
    · obtain ⟨answers, bus, rfl⟩ := fetchInstr_stop_reads hfetch
      exact .inr (.inr (by rw [afterStep_of_fault (hr.trans hx)]; exact hgate))
    · rw [afterStep_of_next (hr.trans hx), State.account_svcNmi]
      obtain ⟨rfl, hv⟩ | hv := exec_svcNmi hexec
      · exact .inr (.inl ⟨⟨hf, hnmi, hdma⟩, ⟨u, hfetch⟩, hv⟩)
      · obtain ⟨answers, bus, rfl⟩ := fetchInstr_instr hfetch
        exact .inr (.inr (hv.trans hgate))

end Sys2Proof.Machine

namespace Sys2Proof

open Machine Forms

/-- Settles O54: leaving and entering are two of the three things a step can do to the service state. -/
theorem onlyRtiLeavesServicingNmi : Obligations.OnlyRtiLeavesServicingNmi := by
  intro k s
  refine ⟨fun hsvc hleft => ?_, fun hsvc hentered => ?_, rfl, rfl, rfl, rfl⟩
  all_goals obtain ⟨hpending, hen, h⟩ | ⟨hrun, hfetch, h⟩ | h := afterStep_svcNmi k s
  · simp [h] at hleft
  · exact ⟨hrun, hfetch⟩
  · simp [h, hsvc] at hleft
  · exact ⟨hpending, hen⟩
  · simp [h] at hentered
  · simp [h, hsvc] at hentered

end Sys2Proof

/-! The fault of an unassigned opcode byte, and the instruction that the bytes at PC decode to (30_encoding R57;
60_exceptions R200, R201, R224, R225). -/

namespace Sys2Proof.Machine

open Sys2Proof.Forms (RunsInstruction fetchBytes)

variable {k : Params} {s t : State}

theorem fetchInstr_of_unassigned (hk : k.fetchAvailable s.pc = true) (h : dispatch (s.answer s.pc) = none) :
    fetchInstr k s = .stop (.illegalOpcode s.pc (s.answer s.pc)) (s.afterRead s.pc) := by
  simp [fetchInstr, hk, State.memRead, h]

theorem executeInstruction_eq_fault_iff (hk : ∀ a, k.fetchAvailable a = true) {f : Fault} :
    executeInstruction k s = .fault f t ↔
      dispatch (s.answer s.pc) = none ∧ f = .illegalOpcode s.pc (s.answer s.pc) ∧ t = (s.afterRead s.pc).halt f := by
  constructor
  · intro h
    obtain ⟨u, hstop, rfl⟩ := executeInstruction_fault_fetch h
    obtain ⟨hd, hf, rfl⟩ := fetchInstr_stop hk hstop
    exact ⟨hd, hf, rfl⟩
  · rintro ⟨hd, rfl, rfl⟩
    exact executeInstruction_of_stop (fetchInstr_of_unassigned (hk s.pc) hd)

/-- Only a step that runs an instruction ends in a fault, when the machine is not halted (60_exceptions R200). -/
theorem runsInstruction_of_fault {f : Fault} (hf : s.fault = none) (h : stepResult k s = .fault f t) :
    RunsInstruction s := by
  obtain ⟨g, hg, -⟩ | ⟨-, -, -, hr⟩ | ⟨-, -, -, hr⟩ | ⟨-, hnmi, hdma, -⟩ := stepResult_cases k s
  · simp [hf] at hg
  · simp [hr] at h
  · simp [hr] at h
  · exact ⟨hf, hnmi, hdma⟩

theorem length_fetchBytes (n : Nat) (addr : Addr) (s : State) : (fetchBytes n addr s).1.length = n := by
  induction n generalizing addr s with
  | zero => rfl
  | succ n ih => exact congrArg (· + 1) (ih ..)

/-- A row assembles with no byte left over by its width: no operand byte, one, or two (30_encoding R54, R57). -/
theorem assemble_exact_cases {r : Row} {tail : List Byte} {i : Instr} (h : assemble r tail = .ok i []) :
    (width r.mode = 1 ∧ tail = [] ∧ i = r.make 0 0) ∨
    (∃ b1, width r.mode = 2 ∧ tail = [b1] ∧ i = r.make b1 0) ∨
    (∃ b1 b2, width r.mode = 3 ∧ tail = [b1, b2] ∧ i = r.make b1 b2) := by
  unfold assemble at h
  split at h
  case h_1 hw =>
    cases h
    exact .inl ⟨hw, rfl, rfl⟩
  case h_2 b1 _ hw =>
    cases h
    exact .inr (.inl ⟨b1, hw, rfl, rfl⟩)
  case h_3 b1 b2 _ hw =>
    cases h
    exact .inr (.inr ⟨b1, b2, hw, rfl, rfl⟩)
  case h_4 => cases h

/-- Operand bytes that a row assembles with none left over are the ones its fetch reads (30_encoding R57). -/
theorem fetchOperands_of_assemble (hk : ∀ a, k.fetchAvailable a = true) {r : Row} {n : Nat} {i : Instr}
    (h : assemble r (fetchBytes n (s.pc + 1) s).1 = .ok i []) (opcode : Byte) :
    fetchOperands k r opcode s = .instr i (fetchBytes n (s.pc + 1) s).2 := by
  have hlength := length_fetchBytes n (s.pc + 1) s
  obtain ⟨hw, htail, rfl⟩ | ⟨b1, hw, htail, rfl⟩ | ⟨b1, b2, hw, htail, rfl⟩ := assemble_exact_cases h <;>
    rw [htail] at hlength <;> subst hlength
  · simp only [fetchOperands, hw]
    rfl
  · obtain ⟨rfl, -⟩ := List.cons.inj htail
    simp only [fetchOperands, hw, hk, if_true]
    rfl
  · have hsecond : s.pc + 1 + 1 = s.pc + 2 := BitVec.add_assoc ..
    simp only [List.length_cons, List.length_nil, fetchBytes, hsecond, List.cons.injEq, and_true] at htail ⊢
    obtain ⟨rfl, rfl⟩ := htail
    simp only [fetchOperands, hw, hk, if_true]

/-- Where every byte is available, a fetch reads the bytes at PC that decode to one instruction, and gives it
(60_exceptions R201). -/
theorem fetchInstr_of_decode (hk : ∀ a, k.fetchAvailable a = true) {addr : Addr} (hpc : s.pc = addr) {n : Nat}
    {i : Instr} (h : decode (fetchBytes n addr s).1 = .ok i []) : fetchInstr k s = .instr i (fetchBytes n addr s).2 := by
  subst hpc
  cases n with
  | zero => cases h
  | succ n =>
    cases hr : dispatch (s.answer s.pc) with
    | none => simp [fetchBytes, decode, State.memRead, hr] at h
    | some r =>
      have hops := fetchOperands_of_assemble (s := s.afterRead s.pc) hk ((decode_cons_of_dispatch hr _).symm.trans h)
      simp only [fetchInstr, hk, if_true, State.memRead, hr, legalPair_of_dispatch hr]
      exact hops (s.answer s.pc)

end Sys2Proof.Machine

namespace Sys2Proof

open Machine Forms

/-- Settles O50: only an instruction step faults, and its state is the gated one after the read of the opcode byte. -/
theorem onlyAnIllegalOpcodeFaults : Obligations.OnlyAnIllegalOpcodeFaults := by
  intro k s left f hk hf
  have hrun : stepResult k s = .fault f left → RunsInstruction s := runsInstruction_of_fault hf
  rw [← and_iff_right_of_imp hrun, and_congr_right_iff]
  intro hruns
  have ⟨_, hnmi, _⟩ := hruns
  have hgate := gateNmi_of_not_served (s := s.begin) k.nmiPolicy hnmi
  rw [stepResult_of_runs k hruns, hgate, executeInstruction_eq_fault_iff hk]
  rfl

/-- Settles O44: the fetch gives the decoded instruction, whose `exec` completes. -/
theorem stepRunsTheDecodedInstruction : Obligations.StepRunsTheDecodedInstruction := by
  intro s n i hruns fetched hdecode
  have hfetch : fetchInstr Params.hardware (s.begin.gateNmi Config.nmiDisabledPolicy) = .instr i fetched.2 :=
    fetchInstr_of_decode (fun _ => rfl) (State.gateNmi_pc _ s.begin) hdecode
  obtain ⟨t, ht⟩ := exec_answers_next i fetched.2
  rw [step_of_next ((stepResult_of_runs _ hruns).trans (executeInstruction_of_instr hfetch ht)), ht]
  rfl

end Sys2Proof

/-! Reset (70_reset R240). -/

namespace Sys2Proof

open Machine Forms

/-- Settles O55: Reset clears every register and latch, then reads the vector, low byte first. -/
theorem resetFromAnyState : Obligations.ResetFromAnyState := by
  intro s
  refine ⟨s.answer 0xFFFC, State.answer { s with bus := [], answers := (s.afterRead 0xFFFC).answers } 0xFFFD, rfl,
    fun v h => State.answer_of_byteAt h, ?_, ?_⟩
  · rw [← word_eq_ofNat]
    rfl
  · exact Status.toByte_ofByte 0x24

end Sys2Proof

/-! OAM DMA (60_exceptions R206, R211, R212). -/

namespace Sys2Proof.Machine

/-- The transactions of cell `i` of a copy whose bytes stand in `oam`: its read from the page, then its write (R211). -/
def copyEvents (page : Byte) (oam : Memory) (i : Nat) : List BusEvent :=
  [.read (word (BitVec.ofNat 8 i) page) (oam.read i), .oamWrite (BitVec.ofNat 8 i) (oam.read i)]

/-- From `s` to `t` the first `n` bytes of the page were copied, in ascending order and with no other access. -/
structure Copied (page : Byte) (n : Nat) (s t : State) : Prop where
  bytes : ∀ i < n, ∀ v, s.byteAt (word (BitVec.ofNat 8 i) page) = some v → t.oam.read i = v
  bus : t.bus.reverse = s.bus.reverse ++ (List.range n).flatMap (copyEvents page t.oam)

theorem toNat_ofNat_byte {n : Nat} (hn : n < 256) : (BitVec.ofNat 8 n).toNat = n :=
  (BitVec.toNat_ofNat ..).trans (Nat.mod_eq_of_lt hn)

/-- Byte `n` of a copy writes its own cell and leaves the ones before it. -/
theorem Copied.succ {page : Byte} {n : Nat} {s t : State} (hn : n < 256) (hmapper : t.mapper = s.mapper)
    (hmem : t.mem = s.mem) (h : Copied page n s t) : Copied page (n + 1) s (State.dmaByte page t n) := by
  have hoam : (State.dmaByte page t n).oam = t.oam.write n (t.answer (word (BitVec.ofNat 8 n) page)) := by
    rw [State.dmaByte, State.oamWrite, toNat_ofNat_byte hn]
    rfl
  have hsame : (State.dmaByte page t n).oam.read n = t.answer (word (BitVec.ofNat 8 n) page) := by
    rw [hoam, Memory.read_write_same]
  have hbefore : ∀ i < n, (State.dmaByte page t n).oam.read i = t.oam.read i := fun i hi => by
    rw [hoam, Memory.read_write_ne _ _ (Nat.ne_of_lt hi)]
  constructor
  · intro i hi v hv
    obtain hi | rfl := Nat.lt_succ_iff_lt_or_eq.mp hi
    · rw [hbefore i hi]
      exact h.bytes i hi v hv
    · rw [hsame]
      exact State.answer_of_byteAt ((State.byteAt_congr hmapper hmem _).trans hv)
  · have hevents : (List.range n).flatMap (copyEvents page (State.dmaByte page t n).oam) =
        (List.range n).flatMap (copyEvents page t.oam) :=
      List.flatMap_congr fun i hi => by rw [copyEvents, copyEvents, hbefore i (List.mem_range.mp hi)]
    have hbus : (State.dmaByte page t n).bus.reverse =
        t.bus.reverse ++ copyEvents page (State.dmaByte page t n).oam n := by
      rw [copyEvents, hsame]
      simp [State.dmaByte, State.memRead]
    rw [hbus, h.bus, List.range_succ, List.flatMap_append, hevents, List.flatMap_singleton, List.append_assoc]

theorem copied_range (page : Byte) (s : State) {n : Nat} (hn : n ≤ 256) :
    Copied page n s ((List.range n).foldl (State.dmaByte page) s) := by
  induction n with
  | zero => exact ⟨fun i hi => absurd hi (Nat.not_lt_zero i), (List.append_nil _).symm⟩
  | succ n ih =>
    obtain ⟨oam, answers, bus, h⟩ := State.dmaBytes_frame page (List.range n) s
    rw [List.range_succ, List.foldl_append]
    exact (ih (Nat.le_of_succ_le hn)).succ hn (by rw [h]) (by rw [h])

/-- A DMA copies the whole page (R211). -/
theorem copied_serviceDma (s : State) : Copied s.dmaPage 256 s s.serviceDma := by
  obtain ⟨hbytes, hbus⟩ := copied_range s.dmaPage s le_rfl
  exact ⟨hbytes, hbus⟩

/-- 513 cycles from an even cycle and 514 from an odd one both end on an odd cycle (R212). -/
theorem account_serviceDma_cycles (s : State) : s.serviceDma.account.cycles = 513 + s.cycOdd.toNat ∧
    s.serviceDma.account.cycOdd = true := by
  rw [State.account_cycOdd, State.account_cycles, State.serviceDma_cycOdd, State.serviceDma_cycles]
  cases s.cycOdd <;> exact ⟨rfl, rfl⟩

end Sys2Proof.Machine

namespace Sys2Proof

open Machine Forms

/-- Settles O49: the copy and the frame of the DMA, after the NMI policy. -/
theorem oamDmaCopiesThePage : Obligations.OamDmaCopiesThePage := by
  intro s hf hnmi hdma
  have hstep := step_of_next (stepResult_of_dma Params.hardware hf hnmi hdma)
  have hgate := gateNmi_of_not_served (s := s.begin) Params.hardware.nmiPolicy hnmi
  generalize s.begin.gateNmi Params.hardware.nmiPolicy = g at hstep hgate
  obtain ⟨hbytes, hbus⟩ := copied_serviceDma g
  obtain ⟨hcycles, hodd⟩ := account_serviceDma_cycles g
  obtain ⟨oam, answers, bus, hframe⟩ := g.serviceDma_frame
  subst hgate
  refine ⟨_, hstep, fun i v hv => hbytes i.toNat i.isLt v ?_, hbus.trans ?_, hcycles, hodd, rfl, ?_, ?_⟩
  · rw [BitVec.ofNat_toNat, BitVec.setWidth_eq]
    exact hv
  · refine List.flatMap_congr fun i hi => ?_
    rw [copyEvents, word_eq_ofNat, toNat_ofNat_byte (List.mem_range.mp hi)]
    rfl
  · rw [hframe]
    rfl
  · rw [hframe]
    rfl

end Sys2Proof

/-! The cycles of each instruction against its dispatch row (70_reset R250 to R253). -/

namespace Sys2Proof.Machine

open Sys2Proof.Forms (branchOf storeWriters)

/-- The base cycles of a form that reads its operand or has none, by its mode (30_encoding R59). -/
def readCycles : Mode → Nat
  | .IMPLICIT | .ACCUMULATOR | .IMMEDIATE | .RELATIVE => 2
  | .ZEROPAGE => 3
  | .ZEROPAGE_X | .ZEROPAGE_Y | .ABSOLUTE | .ABSOLUTE_X | .ABSOLUTE_Y => 4
  | .INDIRECT | .INDIRECT_Y => 5
  | .INDIRECT_X => 6

/-- The modes that add an index to a 16-bit base, which can cross a page (R84). -/
def canCross (mode : Mode) : Bool := mode ∈ [.ABSOLUTE_X, .ABSOLUTE_Y, .INDIRECT_Y]

/-- The base cycles by mnemonic and mode: a store has the crossing's cycle always, a read-modify-write form in memory two
more for its write, and stack and control transfer have counts of their own (R59). -/
def baseCycles (m : Mnemonic) (mode : Mode) : Nat :=
  match m with
  | .BRK => 7
  | .JSR | .RTS | .RTI => 6
  | .PLA | .PLP => 4
  | .PHA | .PHP => 3
  | .JMP => if mode = .ABSOLUTE then 3 else 5
  | .STA | .STX | .STY => readCycles mode + (canCross mode).toNat
  | .ASL | .LSR | .ROL | .ROR | .INC | .DEC =>
    if mode = .ACCUMULATOR then 2 else readCycles mode + (canCross mode).toNat + 2
  | _ => readCycles mode

/-- The `+` mark of the opcode map: a crossing costs a cycle more where nothing is stored (R59, 70_reset R252). -/
def marked (m : Mnemonic) (mode : Mode) : Bool := canCross mode && m ∉ storeWriters

theorem dispatchRows_cycles :
    dispatchRows.all (fun r => r.base == baseCycles r.mnemonic r.mode && r.pen == marked r.mnemonic r.mode) = true := by
  decide

variable {i : Instr} {s t : State} {r : Row} {base : Nat} {pen crossed taken bcross : Bool}

theorem dispatch_cycles (hr : dispatch i.opcode = some r) :
    r.mode = i.mode ∧ r.base = baseCycles i.mnemonic i.mode ∧ r.pen = marked i.mnemonic i.mode := by
  obtain ⟨r', hr', hmnemonic, hmode, -⟩ := dispatch_opcode i
  obtain rfl : r = r' := Option.some.inj (hr.symm.trans hr')
  have h := List.all_eq_true.mp dispatchRows_cycles r (dispatch_some hr).1
  rw [Bool.and_eq_true_iff, beq_iff_eq, beq_iff_eq, hmnemonic, hmode] at h
  exact ⟨hmode, h⟩

/-- The cycles of a form that is no branch: its base, and one more on a crossing where it is marked (R250, R252). -/
theorem cyclesOf_eq (hr : dispatch i.opcode = some r) (hmode : i.mode ≠ .RELATIVE) :
    cyclesOf r crossed taken bcross = baseCycles i.mnemonic i.mode + penalty (marked i.mnemonic i.mode) crossed := by
  obtain ⟨hm, hbase, hpen⟩ := dispatch_cycles hr
  rw [cyclesOf, if_neg (hm ▸ hmode), penalty, hbase, hpen]

/-- The cycles of a branch: one more when it is taken, two when it is taken to another page (R253). -/
theorem cyclesOf_branch (hr : dispatch i.opcode = some r) (hmode : i.mode = .RELATIVE)
    (hbase : baseCycles i.mnemonic i.mode = 2) :
    cyclesOf r crossed taken bcross = if taken then 3 + penalty true bcross else 2 := by
  obtain ⟨hm, hb, -⟩ := dispatch_cycles hr
  rw [cyclesOf, if_pos (hm.trans hmode), hb, hbase]
  cases taken <;> cases bcross <;> rfl

theorem readClass_cyclesOf {effect : Byte → State → State} {src : Source}
    (h : readClass effect src base pen s = .next t) (hr : dispatch i.opcode = some r) (hmode : i.mode ≠ .RELATIVE)
    (hbase : baseCycles i.mnemonic i.mode = base) (hmark : marked i.mnemonic i.mode = pen)
    (hcrossed : crossed = (readSource src (s.advance (width src.mode))).crossed) :
    t.cycles = cyclesOf r crossed taken bcross := by
  obtain ⟨f, rfl, rfl⟩ := readClass_next h
  rw [State.charge_cycles, cyclesOf_eq hr hmode, hbase, hmark, hcrossed]

/-- A class with a fixed count costs the base of its row, which has no mark. -/
theorem charge_cyclesOf {u : State}
    (h : (Host.Outcome.next (u.charge base) : Host.Outcome State Fault Refusal) = .next t)
    (hr : dispatch i.opcode = some r) (hmode : i.mode ≠ .RELATIVE) (hbase : baseCycles i.mnemonic i.mode = base)
    (hmark : marked i.mnemonic i.mode = false) :
    t.cycles = cyclesOf r crossed taken bcross := by
  rw [← Host.Outcome.next.inj h, State.charge_cycles, cyclesOf_eq hr hmode, hbase, hmark]
  rfl

/-- Branching to another page is a page crossing (44_branch R135). -/
theorem pageCrossed_eq_decide (npc target : Addr) :
    pageCrossed npc target = decide (target.toNat / 256 ≠ npc.toNat / 256) := by
  rw [Bool.eq_iff_iff, pageCrossed_iff, decide_eq_true_eq]

theorem branchClass_cyclesOf {off : Byte} (h : branchClass taken off s = .next t) (hr : dispatch i.opcode = some r)
    (hmode : i.mode = .RELATIVE) (hbase : baseCycles i.mnemonic i.mode = 2)
    (hi : branchOf i s = (taken, decide ((s.pc + 2 + off.signExtend 16).toNat / 256 ≠ (s.pc + 2).toNat / 256))) :
    t.cycles = cyclesOf r crossed (branchOf i s).1 (branchOf i s).2 := by
  rw [branchClass_cycles h, cyclesOf_branch hr hmode hbase, hi, pageCrossed_eq_decide]
  rfl

end Sys2Proof.Machine

namespace Sys2Proof

open Machine Forms

/-- Settles O43: each instruction by its class, with the row of its opcode. -/
theorem cyclesFollowTheDispatchTable : Obligations.CyclesFollowTheDispatchTable := by
  intro i s t r h hr
  cases i with
  | bccRel off | bcsRel off | beqRel off | bneRel off | bmiRel off | bplRel off | bvcRel off | bvsRel off =>
    refine branchClass_cyclesOf h hr rfl rfl ?_
    simp [branchOf, branchForms, Instr.mode, Instr.descriptor, beq_eq_decide]
  | aslZp _ | aslZpx _ | aslAbs _ | aslAbx _ | lsrZp _ | lsrZpx _ | lsrAbs _ | lsrAbx _ | rolZp _ | rolZpx _ | rolAbs _
  | rolAbx _ | rorZp _ | rorZpx _ | rorAbs _ | rorAbx _ | incZp _ | incZpx _ | incAbs _ | incAbx _ | decZp _ | decZpx _
  | decAbs _ | decAbx _ | aslAcc | lsrAcc | rolAcc | rorAcc | staZp _ | staZpx _ | staAbs _ | staAbx _ | staAby _ | staIzx _
  | staIzy _ | stxZp _ | stxZpy _ | stxAbs _ | styZp _ | styZpx _ | styAbs _ | jmpAbs _ | jmpInd _ | jsrAbs _ | rts | rti
  | pha | php | pla | plp | inx | iny | dex | dey | tax | tay | txa | tya | tsx | txs | clc | cld | cli | clv | sec | sed | sei
  | brk | nop => exact charge_cyclesOf h hr Mode.noConfusion rfl rfl
  | _ => exact readClass_cyclesOf h hr Mode.noConfusion rfl rfl rfl

end Sys2Proof

/-! A step and the NMI latch: below the NMI gate nothing reads the latch, so a step with it is the step without it
(60_exceptions R206). -/

namespace Sys2Proof.Machine

/-- The state with the NMI latch at `b`. -/
def State.withNmi (b : Bool) (s : State) : State := { s with nmiPending := b }

variable {s t : State} {b : Bool}

theorem resolve_withNmi (m : EaMode) (b : Bool) (s : State) :
    resolve m (s.withNmi b) = { resolve m s with state := (resolve m s).state.withNmi b } := by
  cases m <;> rfl

theorem readSource_withNmi (src : Source) (b : Bool) (s : State) :
    readSource src (s.withNmi b) = { readSource src s with state := (readSource src s).state.withNmi b } := by
  cases src with
  | imm v => rfl
  | ea m =>
    rw [readSource, resolve_withNmi]
    rfl

theorem advance_withNmi (len : Nat) (b : Bool) (s : State) :
    (s.withNmi b).advance len = (s.advance len).withNmi b := rfl

theorem readClass_withNmi {effect : Byte → State → State} {src : Source} {base : Nat} {pen : Bool}
    (h : readClass effect src base pen s = .next t) (he : ∀ v u, effect v (State.withNmi b u) = (effect v u).withNmi b) :
    readClass effect src base pen (s.withNmi b) = .next (t.withNmi b) := by
  cases h
  rw [readClass, advance_withNmi, readSource_withNmi, he]
  rfl

theorem writeClass_withNmi {value : State → Byte} {m : EaMode} {base : Nat} (hv : value (s.withNmi b) = value s)
    (h : writeClass value m base s = .next t) : writeClass value m base (s.withNmi b) = .next (t.withNmi b) := by
  cases h
  rw [writeClass, advance_withNmi, resolve_withNmi, hv]
  rfl

theorem rmwClass_withNmi {op : Byte → Status → Byte × Status} {m : EaMode} {base : Nat}
    (h : rmwClass op m base s = .next t) : rmwClass op m base (s.withNmi b) = .next (t.withNmi b) := by
  cases h
  rw [rmwClass, advance_withNmi, resolve_withNmi]
  rfl

theorem jumpTo_withNmi {m : EaMode} {base : Nat} (h : jumpTo m base s = .next t) :
    jumpTo m base (s.withNmi b) = .next (t.withNmi b) := by
  cases h
  rw [jumpTo, advance_withNmi, resolve_withNmi]
  rfl

theorem branchClass_withNmi {taken : Bool} {off : Byte} (h : branchClass taken off s = .next t) :
    branchClass taken off (s.withNmi b) = .next (t.withNmi b) := by
  cases taken <;> cases h <;> rfl

/-- No instruction reads or writes the NMI latch. -/
theorem exec_withNmi {i : Instr} (h : exec i s = .next t) (b : Bool) :
    exec i (s.withNmi b) = .next (t.withNmi b) := by
  cases i with
  | bccRel _ | bcsRel _ | beqRel _ | bneRel _ | bmiRel _ | bplRel _ | bvcRel _ | bvsRel _ => exact branchClass_withNmi h
  | staZp _ | staZpx _ | staAbs _ | staAbx _ | staAby _ | staIzx _ | staIzy _ | stxZp _ | stxZpy _ | stxAbs _ | styZp _
  | styZpx _ | styAbs _ => exact writeClass_withNmi rfl h
  | aslZp _ | aslZpx _ | aslAbs _ | aslAbx _ | lsrZp _ | lsrZpx _ | lsrAbs _ | lsrAbx _ | rolZp _ | rolZpx _ | rolAbs _
  | rolAbx _ | rorZp _ | rorZpx _ | rorAbs _ | rorAbx _ | incZp _ | incZpx _ | incAbs _ | incAbx _ | decZp _ | decZpx _
  | decAbs _ | decAbx _ => exact rmwClass_withNmi h
  | jmpAbs _ | jmpInd _ => exact jumpTo_withNmi h
  | aslAcc | lsrAcc | rolAcc | rorAcc | rts | rti | pha | php | pla | plp | inx | iny | dex | dey | tax | tay | txa | tya | tsx
  | txs | clc | cld | cli | clv | sec | sed | sei | jsrAbs _ | brk | nop =>
    cases h
    rfl
  | _ => exact readClass_withNmi h fun _ _ => rfl

/-- The result of a fetch with the NMI latch at `b`. -/
def FetchResult.withNmi (b : Bool) : FetchResult → FetchResult
  | .instr i s => .instr i (s.withNmi b)
  | .stop f s => .stop f (s.withNmi b)

theorem fetchOperands_withNmi (k : Params) (r : Row) (opcode : Byte) (b : Bool) (s : State) :
    fetchOperands k r opcode (s.withNmi b) = (fetchOperands k r opcode s).withNmi b := by
  have hpc : (s.withNmi b).pc = s.pc := rfl
  simp only [fetchOperands, hpc]
  split
  · rfl
  · split <;> rfl
  · split
    · split <;> rfl
    · rfl

theorem fetchInstr_withNmi (k : Params) (b : Bool) (s : State) :
    fetchInstr k (s.withNmi b) = (fetchInstr k s).withNmi b := by
  have hpc : (s.withNmi b).pc = s.pc := rfl
  have hread : (s.withNmi b).memRead s.pc = ((s.memRead s.pc).1, (s.memRead s.pc).2.withNmi b) := rfl
  simp only [fetchInstr, hpc, hread]
  split
  · split
    · rfl
    · split
      · exact fetchOperands_withNmi ..
      · rfl
  · rfl

/-- The result of a step with the NMI latch at `b`. -/
def StepResult.withNmi (b : Bool) : StepResult → StepResult
  | .next s => .next (s.withNmi b)
  | .fault f s => .fault f (s.withNmi b)
  | .refused r => .refused r

theorem executeInstruction_withNmi (k : Params) (b : Bool) (s : State) :
    executeInstruction k (s.withNmi b) = (executeInstruction k s).withNmi b := by
  have hfetch := fetchInstr_withNmi k b s
  obtain ⟨f, u, hstop, hx⟩ | ⟨i, u, v, hinstr, hexec, hx⟩ := executeInstruction_cases k s
  · rw [hstop] at hfetch
    rw [executeInstruction_of_stop hfetch, hx]
    rfl
  · rw [hinstr] at hfetch
    rw [executeInstruction_of_instr hfetch (exec_withNmi hexec b), hx]
    rfl

theorem foldl_dmaByte_withNmi (page : Byte) (b : Bool) (is : List Nat) (s : State) :
    is.foldl (State.dmaByte page) (s.withNmi b) = (is.foldl (State.dmaByte page) s).withNmi b := by
  induction is generalizing s with
  | nil => rfl
  | cons i is ih => exact ih (State.dmaByte page s i)

theorem serviceDma_withNmi (b : Bool) (s : State) : (s.withNmi b).serviceDma = s.serviceDma.withNmi b := by
  unfold State.serviceDma
  generalize List.range 256 = is
  rw [foldl_dmaByte_withNmi]
  rfl

theorem account_withNmi (b : Bool) (s : State) : (s.withNmi b).account = s.account.withNmi b := rfl

/-- What a step does after the NMI gate, from the gated state. -/
def gatedStep (k : Params) (s : State) : StepResult :=
  if s.dmaPending then .next s.serviceDma.account else executeInstruction k s

theorem gatedStep_withNmi (k : Params) (b : Bool) (s : State) :
    gatedStep k (s.withNmi b) = (gatedStep k s).withNmi b := by
  have hdma : (s.withNmi b).dmaPending = s.dmaPending := rfl
  rw [gatedStep, gatedStep, hdma, serviceDma_withNmi, executeInstruction_withNmi]
  split
  · exact congrArg StepResult.next (account_withNmi b s.serviceDma)
  · rfl

theorem stepResult_eq_gatedStep (k : Params) (hf : s.fault = none) (hnmi : (s.nmiPending && s.nmiEn) = false) :
    stepResult k s = gatedStep k (s.begin.withNmi (s.nmiPending && decide (k.nmiPolicy = .hold))) := by
  have hgate := gateNmi_of_not_served (s := s.begin) k.nmiPolicy hnmi
  simp only [stepResult, hf, hnmi, hgate]
  rfl

/-- With NMI disabled a step is the step without the edge, and its latch is the policy's (R206). -/
theorem stepResult_of_disabled (k : Params) (hf : s.fault = none) (hpending : s.nmiPending = true)
    (hen : s.nmiEn = false) :
    stepResult k s = (stepResult k (s.withNmi false)).withNmi (decide (k.nmiPolicy = .hold)) := by
  rw [stepResult_eq_gatedStep k hf (by simp [hen]), stepResult_eq_gatedStep (s := s.withNmi false) k hf rfl,
    ← gatedStep_withNmi, hpending]
  rfl

theorem stepResult_ne_refused (k : Params) (s : State) (r : Refusal) : stepResult k s ≠ .refused r := by
  obtain ⟨f, -, hr⟩ | ⟨-, -, -, hr⟩ | ⟨-, -, -, hr⟩ | ⟨-, -, -, hr⟩ := stepResult_cases k s <;> rw [hr]
  case inr.inr.inr =>
    obtain ⟨f, u, -, hx⟩ | ⟨i, u, v, -, -, hx⟩ := executeInstruction_cases k (s.begin.gateNmi k.nmiPolicy) <;> rw [hx] <;>
      exact StepResult.noConfusion
  all_goals exact StepResult.noConfusion

theorem afterStep_of_disabled (k : Params) (hf : s.fault = none) (hpending : s.nmiPending = true)
    (hen : s.nmiEn = false) :
    s.afterStep k = ((s.withNmi false).afterStep k).withNmi (decide (k.nmiPolicy = .hold)) := by
  have h := stepResult_of_disabled k hf hpending hen
  cases hr : stepResult k (s.withNmi false) with
  | next t => rw [afterStep_of_next hr, afterStep_of_next (by rw [h, hr]; rfl)]
  | fault f t => rw [afterStep_of_fault hr, afterStep_of_fault (by rw [h, hr]; rfl)]
  | refused r => exact absurd hr (stepResult_ne_refused k _ r)

end Sys2Proof.Machine

namespace Sys2Proof

open Machine Forms

/-- Settles O48: below the gate nothing reads the latch, and only an enabled edge enters the service state. -/
theorem disabledNmiFollowsThePolicy : Obligations.DisabledNmiFollowsThePolicy := by
  intro k s hf hpending hen
  refine ⟨afterStep_of_disabled k hf hpending hen, fun hsvc => ?_⟩
  obtain ⟨-, hentered, -⟩ := onlyRtiLeavesServicingNmi k s
  by_contra hnot
  obtain ⟨-, henabled⟩ := hentered (Bool.eq_false_iff.mpr hnot) hsvc
  simp [hen] at henabled

end Sys2Proof
